-- ==== Sys2Proof/Word.lean ====
section
/-! DEFINITION. The word types of the FW-1216 and their plainest arithmetic: 36-bit words, bytes, planes of
one strip, and counters that saturate. Docstrings cite the rules R1 to R378 of spec/. -/

namespace Sys2Proof

/-- A word of the Headwater stacks, memories and registers (R172, R245). -/
abbrev Word := BitVec 36

/-- A byte of a frame, a bundle or a page. -/
abbrev Byte := BitVec 8

/-- One plane of one strip: bit `128 * column + row` belongs to that local column and row (R135, R144). -/
abbrev Plane := BitVec 1024

/-- A Sluice microword (R159). -/
abbrev MicroWord := BitVec 96

/-- A counter step that saturates at all ones. -/
def satInc {w : Nat} (x : BitVec w) : BitVec w :=
  if x = BitVec.allOnes w then x else x + 1

/-- A saturating addition of `n` to a counter. -/
def satAdd {w : Nat} (x : BitVec w) (n : Nat) : BitVec w :=
  if x.toNat + n < 2 ^ w then BitVec.ofNat w (x.toNat + n) else BitVec.allOnes w

/-- One bit as a vector of width one. -/
def bit (b : Bool) : BitVec 1 := BitVec.ofBool b

/-- A Boolean as a word: 1 for true, 0 for false (R186: comparisons). -/
def Word.ofBool (b : Bool) : Word := if b then 1 else 0

/-- The bytes of a number, most significant first (Table SC-2). -/
def bytesBE (n : Nat) : (count : Nat) → List Byte
  | 0 => []
  | k + 1 => BitVec.ofNat 8 (n / 2 ^ (8 * k)) :: bytesBE n k

/-- The number spelled by bytes, most significant first (Table SC-2). -/
def natBE : List Byte → Nat
  | [] => 0
  | b :: bs => b.toNat * 2 ^ (8 * bs.length) + natBE bs

/-- `len` bytes from position `off` of a byte string. -/
def slice (bs : List Byte) (off len : Nat) : List Byte := (bs.drop off).take len

/-- Byte `i` of a byte string, zero past its end. -/
def byteAt (bs : List Byte) (i : Nat) : Byte := bs.getD i 0

/-- The big-endian number of `len` bytes from position `off`. -/
def fieldBE (bs : List Byte) (off len : Nat) : Nat := natBE (slice bs off len)

end Sys2Proof
end

