-- ==== Sys2Proof/Syntax.lean ====
section
/-! DEFINITION. The commands of the block, one constructor per row of spec/opcode_table.json, and the operands they
carry. A command is one step of the part: an event outside (supply, tee, ring, clocks, cells, die), the instant of one
of the node's own timers or engines, a packet at a network destination, or one instruction that a Headwater context
issues at its program counter (log 8, DESIGN CHOICE). -/

namespace Sys2Proof

/-- A context, which is also its tenant T0 to T15 (R172). -/
abbrev Ctx := Fin 16
/-- A strip S0 to S15 (R135). -/
abbrev Strip := Fin 16
/-- A Headwater unit H0 to H3. -/
abbrev UnitId := Fin 4
/-- An accelerometer channel ch0 to ch11 (R119). -/
abbrev Chan := Fin 12
/-- A serialiser lane (R124). -/
abbrev Lane := Fin 3
/-- A triaxial cell (R118). -/
abbrev CellId := Fin 4
/-- A Meander region (R275). -/
abbrev Region := Fin 16
/-- A network interface by its ID (Table TR-1). -/
abbrev NiId := Fin 24
/-- A router, x + 4 y (R244). -/
abbrev RouterId := Fin 16
/-- A bank: 0 to 15 are PB0 to PB15, 16 to 19 are EB0 to EB3 (R258). -/
abbrev BankId := Fin 20
/-- A Pool group G0 to G3. -/
abbrev Group := Fin 4

/-- A ring port (R290). -/
inductive Port | a | b
  deriving DecidableEq, Repr

/-- The three code resistors' branches (Table SK-2). -/
inductive Branch | cf | cr | cz
  deriving DecidableEq, Repr

/-- The PLLs of GAPLL bits 0 to 4 (Table GA-5). -/
inductive Pll | ckA1 | ckA2 | ckN | ckS | ckT
  deriving DecidableEq, Repr

/-- One pass of a reading: the magnitudes of the currents sampled at the upper and at the lower drive level, in nanoamperes
(R19). -/
structure Pass where
  upper : Nat
  lower : Nat
  deriving DecidableEq, Repr

/-- One reading of the socket code network: three passes (R19). -/
structure Reading where
  pass0 : Pass
  pass1 : Pass
  pass2 : Pass
  deriving DecidableEq, Repr

/-- Readings 1 to 3 of the socket code network (Table SK-3). -/
structure CodeReading where
  one   : Reading
  two   : Reading
  three : Reading
  deriving DecidableEq, Repr

/-- What Catchment calibration measures on one channel: scales and offsets in micro-g (R131). -/
structure ChanMeas where
  gain16 : Nat
  gain64 : Nat
  ofs16  : Int
  ofs64  : Int
  deriving DecidableEq, Repr

/-- The SECDED outcome of the unit or units that an access reads (R255). -/
inductive Ecc | clean | single | double
  deriving DecidableEq, Repr

/-- What a router finds wrong with a unit (R237): one bit, two bits, or its framing parity. -/
inductive HitKind | single | double | framing
  deriving DecidableEq, Repr

/-- An error that a packet meets on its way: the router that finds it and the unit, where 0 is the header and the data units
follow from 1 (R237). -/
structure Hit where
  router : RouterId
  unit   : Nat
  kind   : HitKind
  deriving DecidableEq, Repr

/-- The errors that a packet meets on its way (R237). -/
abbrev Damage := List Hit

/-- Who issued a request, which decides the outcome of its timeout (Table TR-7). -/
inductive Purpose
  | load (t : Ctx) (addr : BitVec 18)
  | fetch (t : Ctx) (addr : BitVec 18)
  | store (t : Ctx) (addr : BitVec 18)
  | register (t : Ctx) (index : BitVec 13)
  | outlet (k : Strip)
  | post (r : Region) (addr : BitVec 18)
  | system
  deriving DecidableEq, Repr

/-- The header fields of a request packet (Table TR-3), with what befalls it: its damage in transit, and the SECDED outcome
of the units that it reads, by their number in the packet; a unit not named reads clean (R237, R255; log 121,
DESIGN CHOICE). The route is the NI's own (R233). -/
structure Req where
  src     : NiId
  dest    : NiId
  ten     : Ctx
  qc      : BitVec 4
  tag     : BitVec 6
  len     : BitVec 4
  addr    : BitVec 23
  purpose : Purpose
  damage  : Damage
  ecc     : List (Nat × Ecc)
  deriving DecidableEq, Repr

/-- What befalls a packet that a part of the node sends of its own accord, and its response: damage on the way out and back,
and the SECDED outcome of the units that it reads (R237, R255). -/
structure Fate where
  damage : Damage
  back   : Damage
  ecc    : List (Nat × Ecc)
  deriving DecidableEq, Repr

/-- A parity error in a copy that the node checks as it uses it: a line of a unit's instruction cache (R356), an entry of an NI's route
table, a copy of a context's window (Table FL-3, 63h). -/
inductive Upset
  | line (n : Fin 4) (l : Nat)
  | route (n : Fin 24) (e : Fin 32)
  | window (t : Fin 16) (w : Fin 4)
  deriving DecidableEq, Repr

/-- What a start and the run after it take from outside the node's own state: the tee, whether the fuses read uncorrectable
(Table SS-3 step 1), the parity check of the spare strips (R155), the calibration measurements (R131), the time from the origin to
RUN, and whether the start stands still before RUN, with that many of the three steps of the commit done (R54, R66, Table SS-3 step
7); for a watchdog's, whether the reset cuts off copy 0 or copy 1 (true) of a page pair under program (R60, R68); then what befalls the packets that the node's own parts send, in their order, the spare strips that fail the read made at each
remap (R237, R355), and the parity errors that are met, with their times from the origin. -/
structure StartInput where
  code       : CodeReading
  fuseFault  : Bool
  badSpares  : BitVec 16
  meas       : Vector ChanMeas 12
  took       : Nat
  stalls     : Option (Fin 4)
  cut        : Option Bool
  fates      : List Fate
  spareReads : List (BitVec 16)
  upsets     : List (Nat × Upset)
  deriving DecidableEq, Repr

/-- An HSR frame as it stands on a port: addresses, tag and payload (Table LN-1). `invalid` says that it ends with an
invalid FCS, as a copy forwarded before its own FCS failed does (R296). -/
structure Frame where
  dst       : BitVec 48
  src       : BitVec 48
  path      : BitVec 4
  seq       : BitVec 16
  etherType : BitVec 16
  payload   : List Byte
  invalid   : Bool
  deriving DecidableEq, Repr

/-- A frame at a port with what the receiver finds of it (R294 to R296). -/
structure FrameIn where
  frame   : Frame
  tagged  : Bool
  lsduOk  : Bool
  fcsOk   : Bool
  deriving DecidableEq, Repr

/-- A consumed Millrace message: its frame's addresses and its bytes from the common header on (R310). -/
structure Message where
  src   : BitVec 48
  dst   : BitVec 48
  bytes : List Byte
  deriving DecidableEq, Repr

/-- An Announce message as the best master clock algorithm compares it (R304, Table LN-3). -/
structure AnnounceMsg where
  src       : BitVec 48
  identity  : BitVec 64
  priority1 : Byte
  clockClass : Byte
  accuracy  : Byte
  variance  : BitVec 16
  priority2 : Byte
  steps     : BitVec 16
  utcOffset : BitVec 16
  utcValid  : Bool
  domain    : Byte
  deriving DecidableEq, Repr

/-- Where a parity error in a unit's state stands (R356, Table FL-9 code 51h). -/
inductive UnitPart | dataStack | returnStack | storeBuffer | accumulators | saveCopy
  deriving DecidableEq, Repr

/-- How a register write or read of the own block is spelled: HWR or HWRC (R193). -/
inductive Via | hwr | hwrc
  deriving DecidableEq, Repr

/-- Keepsake regions that keep an erased reserve (R62). -/
inductive KsRegion | findingLedger | faultLedger | records
  deriving DecidableEq, Repr

/-- The measured response of one self-test axis (R133, CTSTRES): ratio in 1/512, largest cross response in 1/1024. -/
structure AxisMeas where
  response : Nat
  cross    : Nat
  invalid  : Bool
  deriving DecidableEq, Repr

/-- What stands with NOP in slot A: slot B of the pair, or in place of the pair an instruction word that Table HW-3 or Table HW-4 does not
list (R181, R186; log 9, DESIGN CHOICE). -/
inductive SlotB
  | op (code : BitVec 8)
  | undefined (word : BitVec 18)
  deriving DecidableEq, Repr

/-- The commands. Each constructor's row of spec/opcode_table.json is in LAWS.json. In a short op, `b` is the code of
slot B and `bar` the barrier bit (Table HW-1; log 9, DESIGN CHOICE). In shortfallDeclaration, `cls` is a class whose share stands full
(R271). -/
inductive Instr
  -- start, stop and supply
  | powerOn (i : StartInput)
  | brownOutThreshold
  | brownOutDipEnd
  | brownOutFilterExpiry
  | stopComplete (i : StartInput)
  | storeExhausted
  | watchdogExpiry (i : StartInput)
  | watchdogService
  | pllLockLoss (p : Pll) (overOneMs : Bool)
  | railOutOfBand (rail : Fin 5)
  | c4WaitExpiry (i : StartInput)
  | thermalRelease (i : StartInput)
  | runTokenLapse
  | codeReread (r : CodeReading)
  -- Gauge
  | dieTemperatureReading (t : BitVec 16)
  | dvfsInterval (busy total : Nat)
  | operatingPointChange
  | standbyPllLockTimeout
  | sentinelEstimateUpdate (m : Vector Nat 4)
  | sentinelCrossing (c : CellId)
  | rangeLoopInterval (ch : Chan) (peakMg : Nat) (clip : Bool)
  | linkAmplitudeFallback (p : Port)
  -- ring link
  | portUp (p : Port) (amp24 master : Bool)
  | linkLoss (p : Port)
  | relayStart (p : Port)
  | hsrFrame (p : Port) (f : FrameIn)
  | duplicateEntryForget
  | ownFramePromotion (p : Port)
  | supervisionSend
  | supervisionFrame (p : Port) (f : FrameIn)
  -- ring time
  | sync (p : Port) (src : BitVec 48) (seqId : BitVec 16) (master local_ : Int)
  | followUp (p : Port) (f : FrameIn)
  | delayReq (p : Port) (f : FrameIn) (residence : Nat)
  | delayReqSend
  | delayResp (p : Port) (src : BitVec 48) (delay : Nat)
  | announce (p : Port) (m : AnnounceMsg)
  | announceTimeout
  | syncSilence
  | timePortChange
  -- Millrace
  | pulseSend
  | pulse (m : Message)
  | buddySilence (b : BitVec 6)
  | lossRepeat (b : BitVec 6)
  | loss (m : Message)
  | going (m : Message)
  | twin (m : Message)
  | census (m : Message)
  | censusAnswer
  | roll (m : Message)
  | speedSourceChange
  | timeAux (m : Message)
  | bundle (m : Message)
  | bundleTransferTimeout (m : Message)
  | reassemblyEraseComplete
  | stagingComplete
  | restart (m : Message)
  | sectorEraseComplete (r : KsRegion)
  | keeperSilence
  | ledgerReplay
  | outboxRecordTake (t : Ctx)
  -- modes
  | mode (t : Ctx) (field : BitVec 11)
  | modeCommit (t : Ctx)
  | proofWindowOpen
  | selfTestAxis (ch : Chan) (prev : Option AxisMeas)
  | proofWindowEnd (last : Option AxisMeas)
  | arrayPark
  | poolWakeComplete (g : Group)
  | captureTrigger (t : Ctx) (via : Via)
  | captureArm (t : Ctx) (via : Via)
  | captureStop (t : Ctx) (via : Via)
  | captureLenReached (t : Ctx)
  -- Catchment
  | laneFrame (l : Lane) (codeOk : Bool) (bytes : Vector Byte 31)
  | laneRetrain (l : Lane) (ok : Bool)
  | rangeChange (ch : Chan)
  | ctclaimWrite (t : Ctx)
  -- Braid
  | inletBufferComplete (k : Strip)
  | inctlWrite (t : Ctx)
  | inrelWrite (t : Ctx)
  | inloadWrite (t : Ctx)
  | outctlWrite (t : Ctx)
  | brctlWrite (t : Ctx)
  | outletSend (k : Strip)
  | strandOpEnd (t : Ctx)
  | confluenceResult (t : Ctx)
  | speculationResolve (t : Ctx)
  | shiftAbandon (t : Ctx)
  | sluiceParityReload (n : UnitId) (addr : BitVec 12) (ecc : Ecc)
  -- Bell, scheduler
  | bell (t : Ctx)
  | contextSwap (n : UnitId) (par : Bool)
  | sliceExpiry (n : UnitId)
  | waitTimeout (t : Ctx)
  -- long ops
  | lit (t : Ctx) (k : BitVec 11)
  | litu (t : Ctx) (k : BitVec 11)
  | lits (t : Ctx) (k : BitVec 11)
  | ld (t : Ctx) (a : BitVec 11) (par : Option UnitPart)
  | st (t : Ctx) (a : BitVec 11)
  | ldx (t : Ctx) (a : BitVec 11)
  | stx (t : Ctx) (a : BitVec 11)
  | ldy (t : Ctx) (a : BitVec 11)
  | sty (t : Ctx) (a : BitVec 11)
  | bank (t : Ctx) (k : BitVec 11)
  | addi (t : Ctx) (k : BitVec 11)
  | br (t : Ctx) (o : BitVec 11)
  | bz (t : Ctx) (o : BitVec 11)
  | bnz (t : Ctx) (o : BitVec 11)
  | call (t : Ctx) (o : BitVec 11)
  | ret (t : Ctx) (field : BitVec 11)
  | jmpi (t : Ctx) (field : BitVec 11)
  | calli (t : Ctx) (field : BitVec 11)
  | brc (t : Ctx) (field : BitVec 11)
  | loop (t : Ctx) (n : BitVec 11)
  | leave (t : Ctx) (field : BitVec 11)
  | repsMovs (t : Ctx) (hi : BitVec 9) (budget : Nat)
  | repsFills (t : Ctx) (hi : BitVec 9) (budget : Nat)
  | repsCrcs (t : Ctx) (hi : BitVec 9) (budget : Nat)
  | repsScans (t : Ctx) (hi : BitVec 9) (budget : Nat)
  | conf (t : Ctx) (field : BitVec 11)
  | wait (t : Ctx) (field : BitVec 11)
  | yield (t : Ctx) (field : BitVec 11)
  | fence (t : Ctx) (field : BitVec 11)
  | retb (t : Ctx) (field : BitVec 11)
  | hrd (t : Ctx) (field : BitVec 11)
  | hwr (t : Ctx) (field : BitVec 11)
  | hrdc (t : Ctx) (field : BitVec 11)
  | hwrc (t : Ctx) (field : BitVec 11)
  | lctlWrite (t : Ctx) (via : Via)
  | rstatWrite (t : Ctx) (via : Via)
  | ctsixlRead (t : Ctx)
  | ptnsRead (t : Ctx)
  | wrlabWrite (t : Ctx)
  | gafloorWrite (t : Ctx)
  | gasflWrite (t : Ctx)
  | mntapWrite (t : Ctx)
  | mnclkWrite (t : Ctx)
  | clockSwitchComplete (r : Region)
  | mnrcfgWrite (t : Ctx)
  | reconfigurationStart
  | reconfigurationComplete (ecc : List (Nat × Ecc))
  | tapEvent (r : Region)
  | post (r : Region)
  -- network
  | rd (q : Req)
  | wr (q : Req) (units : List (BitVec 72)) (poison : Bool)
  | wrw (q : Req) (word : Word) (poison : Bool)
  | wrp (q : Req) (units : List (BitVec 72)) (poison : Bool)
  | regrd (q : Req)
  | regwr (q : Req) (value : Word) (poison : Bool)
  | bstr (q : Req) (units : List (BitVec 72))
  | rdi (q : Req)
  | rdata (n : NiId) (tag : BitVec 6) (d : Damage)
  | ack (n : NiId) (tag : BitVec 6) (d : Damage)
  | err (n : NiId) (tag : BitVec 6) (d : Damage)
  | snpinv (n : NiId) (block : BitVec 11)
  | snpack (n : NiId) (block : BitVec 11)
  | niTimeout (n : NiId) (tag : BitVec 6) (near : Bool)
  | tagRelease (n : NiId) (tag : BitVec 6)
  | flushComplete (n : NiId)
  | scrubRead (k : BankId) (ecc : Ecc)
  | forcedScrub (k : BankId) (ecc : Ecc)
  | weirWindow
  | shortfallDeclaration (g : Group) (cls : BitVec 4)
  -- fault ledger
  | countedInterval
  | faultLedgerPageWrite
  | faultHandlingComplete
  -- strand ops
  | strandOpenRegion (t : Ctx) (e : BitVec 11) (par : Option Strip)
  | copy (t : Ctx) (par : Option Strip)
  | romNot (t : Ctx) (par : Option Strip)
  | romAnd (t : Ctx) (par : Option Strip)
  | romOr (t : Ctx) (par : Option Strip)
  | romXor (t : Ctx) (par : Option Strip)
  | set (t : Ctx) (par : Option Strip)
  | clr (t : Ctx) (par : Option Strip)
  | shn (t : Ctx) (par : Option Strip)
  | she (t : Ctx) (par : Option Strip)
  | shs (t : Ctx) (par : Option Strip)
  | shw (t : Ctx) (par : Option Strip)
  | romAdd (t : Ctx) (par : Option Strip)
  | subc (t : Ctx) (par : Option Strip)
  | romSub (t : Ctx) (par : Option Strip)
  | cmpc (t : Ctx) (par : Option Strip)
  | cmp (t : Ctx) (par : Option Strip)
  | maxc (t : Ctx) (par : Option Strip)
  | romMul (t : Ctx) (par : Option Strip)
  | any (t : Ctx) (par : Option Strip)
  | inh (t : Ctx) (par : Option Strip)
  | outp (t : Ctx) (par : Option Strip)
  | dec128 (t : Ctx) (par : Option Strip)
  | scale (t : Ctx) (par : Option Strip)
  | fft8k (t : Ctx) (par : Option Strip)
  | magsq (t : Ctx) (par : Option Strip)
  | envdm (t : Ctx) (par : Option Strip)
  | resamp (t : Ctx) (par : Option Strip)
  | selftest (t : Ctx) (k : Fin 16) (par : Option Strip)
  -- short ops in slot A, with slot B and the barrier bit
  | nop (t : Ctx) (b : SlotB) (bar : Bool)
  | dup (t : Ctx) (b : BitVec 8) (bar : Bool) (par : Option UnitPart)
  | drop (t : Ctx) (b : BitVec 8) (bar : Bool)
  | swap (t : Ctx) (b : BitVec 8) (bar : Bool)
  | over (t : Ctx) (b : BitVec 8) (bar : Bool)
  | rot (t : Ctx) (b : BitVec 8) (bar : Bool)
  | nip (t : Ctx) (b : BitVec 8) (bar : Bool)
  | tuck (t : Ctx) (b : BitVec 8) (bar : Bool)
  | pick (t : Ctx) (b : BitVec 8) (bar : Bool)
  | tor (t : Ctx) (b : BitVec 8) (bar : Bool)
  | fromr (t : Ctx) (b : BitVec 8) (bar : Bool)
  | rfetch (t : Ctx) (b : BitVec 8) (bar : Bool)
  | rdrop (t : Ctx) (b : BitVec 8) (bar : Bool)
  | add (t : Ctx) (b : BitVec 8) (bar : Bool)
  | sub (t : Ctx) (b : BitVec 8) (bar : Bool)
  | neg (t : Ctx) (b : BitVec 8) (bar : Bool)
  | inc (t : Ctx) (b : BitVec 8) (bar : Bool)
  | dec (t : Ctx) (b : BitVec 8) (bar : Bool)
  | mul (t : Ctx) (b : BitVec 8) (bar : Bool)
  | mulu (t : Ctx) (b : BitVec 8) (bar : Bool)
  | min (t : Ctx) (b : BitVec 8) (bar : Bool)
  | max (t : Ctx) (b : BitVec 8) (bar : Bool)
  | abs (t : Ctx) (b : BitVec 8) (bar : Bool)
  | and (t : Ctx) (b : BitVec 8) (bar : Bool)
  | or (t : Ctx) (b : BitVec 8) (bar : Bool)
  | xor (t : Ctx) (b : BitVec 8) (bar : Bool)
  | not (t : Ctx) (b : BitVec 8) (bar : Bool)
  | shl (t : Ctx) (b : BitVec 8) (bar : Bool)
  | shr (t : Ctx) (b : BitVec 8) (bar : Bool)
  | asr (t : Ctx) (b : BitVec 8) (bar : Bool)
  | rol (t : Ctx) (b : BitVec 8) (bar : Bool)
  | shl1 (t : Ctx) (b : BitVec 8) (bar : Bool)
  | shr1 (t : Ctx) (b : BitVec 8) (bar : Bool)
  | asr1 (t : Ctx) (b : BitVec 8) (bar : Bool)
  | eq (t : Ctx) (b : BitVec 8) (bar : Bool)
  | lt (t : Ctx) (b : BitVec 8) (bar : Bool)
  | ult (t : Ctx) (b : BitVec 8) (bar : Bool)
  | zeq (t : Ctx) (b : BitVec 8) (bar : Bool)
  | zlt (t : Ctx) (b : BitVec 8) (bar : Bool)
  | crc (t : Ctx) (b : BitVec 8) (bar : Bool)
  | par (t : Ctx) (b : BitVec 8) (bar : Bool)
  | brev (t : Ctx) (b : BitVec 8) (bar : Bool)
  | ldi (t : Ctx) (b : BitVec 8) (bar : Bool)
  | sti (t : Ctx) (b : BitVec 8) (bar : Bool)
  | ldip (t : Ctx) (b : BitVec 8) (bar : Bool)
  | stip (t : Ctx) (b : BitVec 8) (bar : Bool)
  | movs (t : Ctx) (b : BitVec 8) (bar : Bool)
  | fills (t : Ctx) (b : BitVec 8) (bar : Bool)
  | crcs (t : Ctx) (b : BitVec 8) (bar : Bool)
  | scans (t : Ctx) (b : BitVec 8) (bar : Bool)
  | os (t : Ctx) (k : Fin 8) (b : BitVec 8) (bar : Bool)
  | mac (t : Ctx) (b : BitVec 8) (bar : Bool) (par : Option UnitPart)
  | cmac (t : Ctx) (b : BitVec 8) (bar : Bool)
  | clra (t : Ctx) (b : BitVec 8) (bar : Bool)
  | rdre (t : Ctx) (b : BitVec 8) (bar : Bool)
  | rdim (t : Ctx) (b : BitVec 8) (bar : Bool)
  | wrre (t : Ctx) (b : BitVec 8) (bar : Bool)
  | wrim (t : Ctx) (b : BitVec 8) (bar : Bool)
  | norm (t : Ctx) (b : BitVec 8) (bar : Bool)
  | exp (t : Ctx) (b : BitVec 8) (bar : Bool)
  | bexp (t : Ctx) (b : BitVec 8) (bar : Bool)
  | rdbx (t : Ctx) (b : BitVec 8) (bar : Bool)
  | rnd (t : Ctx) (b : BitVec 8) (bar : Bool)
  -- later rows of the table
  | returnAfterBrownOut (i : StartInput)
  | vsReturnAboveBrownOut
  | lockSelfCheckFailure (drbg : Bool)
  | nodeTableForget
  | regionTreeEdge (r : Region)
  deriving DecidableEq, Repr

end Sys2Proof
end

