-- ==== Sys2Proof/Decode.lean ====
section
/-! DEFINITION. Command words. No row of spec/opcode_table.json gives its command bits, so no word spells a command
(log 8, DESIGN CHOICE). -/

namespace Sys2Proof

/-- The command that a word of the table's bits spells: none, since the table gives no row any bits (log 8, DESIGN CHOICE). -/
def decodeTableWord (_nbits _w : Nat) : Option Instr := none

end Sys2Proof
end

