-- ==== Sys2Proof/Config.lean ====
section
/-! DEFINITION. What a node or a ROM release fixes and what the spec leaves open: constants WITHOUT A BODY, so
that no proof can see a value of them. A statement about one of them holds whatever it is. The assumption log
names the entry of each. -/

namespace Sys2Proof.Config

/-- The device serial fused at manufacture (R73, Table HR-4 LKSERL; log 5, DESIGN CHOICE). -/
opaque deviceSerial : BitVec 64

/-- The bytes of the device certificate, DER (R73; log 5, DESIGN CHOICE). -/
opaque certificateBytes : List Byte

/-- The device certificate: 600 bytes or less (Table LK-1). -/
def certificate : List Byte := certificateBytes.take 600

/-- The Larkor root hash fused at manufacture (R73; log 5, DESIGN CHOICE). -/
opaque larkorRoot : BitVec 256

/-- The device identity private key, never readable (R73; log 5, DESIGN CHOICE). -/
opaque deviceKey : Nat

/-- The house seed, never readable (R73, R95; log 5, DESIGN CHOICE). -/
opaque houseSeed : BitVec 256

/-- SLROMV: ROM release and library revision (Table SL-6; log 5, DESIGN CHOICE). -/
opaque romVersion : BitVec 32

/-- The resistance in milliohms computed from two currents that R20's formula has no value for: the drive at its current limit, or
no current at the lower level alone (R19, R20; log 133, DESIGN CHOICE). -/
opaque cornerOhms : Nat → Nat → Nat

/-- The run nonce drawn at a start, from the free-value counter (R75; log 3, DESIGN CHOICE). -/
opaque freeNonce : Nat → BitVec 64

/-- A plane's content that the spec does not state, from the free-value counter and an index (R165, R378; log 7, DESIGN CHOICE). -/
opaque freePlane : Nat → Nat → Plane

/-- The word of a ROM address in the release that the node carries: not published but for the contracts of Table SL-4
(R169, R378; log 7, DESIGN CHOICE). -/
opaque romWord : BitVec 12 → BitVec 96

/-- A number the spec leaves to the ROM release or the start, from the free-value counter and an index (log 7, DESIGN CHOICE). -/
opaque freeNat : Nat → Nat → Nat

/-- LPMSE: what a PHY measures on the link in an interval of 1 ms, by the interval and the port (Table LN-7; log 153, DESIGN CHOICE). -/
opaque linkMse : Nat → Nat → BitVec 16

/-- Which data word a POIS unit delivers (R237, R238: not to be trusted), from the free-value counter (log 3, DESIGN CHOICE). -/
opaque freeWord : Nat → Word

end Sys2Proof.Config
end

