-- ==== Sys2Proof/Machine/Crypto.lean ====
section
/-! DEFINITION. The algorithms that the Lock's rules name: SHA-256 (FIPS 180-4), HMAC and HKDF (RFC 5869), AES-128-GCM (FIPS 197,
SP 800-38D), ECDSA and ECC CDH on P-256 (FIPS 186-5, SP 800-56A) (R73 to R80, R94 to R96; log 6, PRESUMED from those standards). Words
and numbers are Nat; every function is marked irreducible, so that no proof unfolds one by chance. -/

namespace Sys2Proof.Machine

/-! ### SHA-256 -/

/-- The round constants. -/
def shaK : List Nat :=
  [0x428a2f98, 0x71374491, 0xb5c0fbcf, 0xe9b5dba5, 0x3956c25b, 0x59f111f1, 0x923f82a4, 0xab1c5ed5]
  ++ [0xd807aa98, 0x12835b01, 0x243185be, 0x550c7dc3, 0x72be5d74, 0x80deb1fe, 0x9bdc06a7, 0xc19bf174]
  ++ [0xe49b69c1, 0xefbe4786, 0x0fc19dc6, 0x240ca1cc, 0x2de92c6f, 0x4a7484aa, 0x5cb0a9dc, 0x76f988da]
  ++ [0x983e5152, 0xa831c66d, 0xb00327c8, 0xbf597fc7, 0xc6e00bf3, 0xd5a79147, 0x06ca6351, 0x14292967]
  ++ [0x27b70a85, 0x2e1b2138, 0x4d2c6dfc, 0x53380d13, 0x650a7354, 0x766a0abb, 0x81c2c92e, 0x92722c85]
  ++ [0xa2bfe8a1, 0xa81a664b, 0xc24b8b70, 0xc76c51a3, 0xd192e819, 0xd6990624, 0xf40e3585, 0x106aa070]
  ++ [0x19a4c116, 0x1e376c08, 0x2748774c, 0x34b0bcb5, 0x391c0cb3, 0x4ed8aa4a, 0x5b9cca4f, 0x682e6ff3]
  ++ [0x748f82ee, 0x78a5636f, 0x84c87814, 0x8cc70208, 0x90befffa, 0xa4506ceb, 0xbef9a3f7, 0xc67178f2]

/-- The initial hash value. -/
def shaH0 : List Nat := [0x6a09e667, 0xbb67ae85, 0x3c6ef372, 0xa54ff53a, 0x510e527f, 0x9b05688c, 0x1f83d9ab, 0x5be0cd19]

/-- A 32-bit word rotated right. -/
def rotr32 (n x : Nat) : Nat := (x >>> n ||| x <<< (32 - n)) % 2 ^ 32

/-- One round: the sixteen words of the schedule that come next, and the eight working variables. -/
def shaRound (st : List Nat × List Nat) (k : Nat) : List Nat × List Nat :=
  match st.1, st.2 with
  | w :: ws, [a, b, c, d, e, f, g, h] =>
    let w1 := ws.getD 0 0
    let w14 := ws.getD 13 0
    let s0 := rotr32 7 w1 ^^^ rotr32 18 w1 ^^^ (w1 >>> 3)
    let s1 := rotr32 17 w14 ^^^ rotr32 19 w14 ^^^ (w14 >>> 10)
    let next := (s1 + ws.getD 8 0 + s0 + w) % 2 ^ 32
    let t1 := h + (rotr32 6 e ^^^ rotr32 11 e ^^^ rotr32 25 e) + ((e &&& f) ^^^ ((2 ^ 32 - 1 - e) &&& g)) + k + w
    let t2 := (rotr32 2 a ^^^ rotr32 13 a ^^^ rotr32 22 a) + ((a &&& b) ^^^ (a &&& c) ^^^ (b &&& c))
    (ws ++ [next], [(t1 + t2) % 2 ^ 32, a, b, c, (d + t1) % 2 ^ 32, e, f, g])
  | _, v => (st.1, v)

/-- The sixteen words of a block. -/
def blockWords (b : List Byte) : List Nat := (List.range 16).map (fun i => natBE ((b.drop (4 * i)).take 4))

def shaBlock (h : List Nat) (b : List Byte) : List Nat :=
  List.zipWith (fun x y => (x + y) % 2 ^ 32) h (shaK.foldl shaRound (blockWords b, h)).2

/-- The hash value after `n` blocks of `b`. -/
def shaBlocks : Nat → List Nat → List Byte → List Nat
  | 0, h, _ => h
  | n + 1, h, b => shaBlocks n (shaBlock h (b.take 64)) (b.drop 64)

/-- The padded message. -/
def shaPad (b : List Byte) : List Byte :=
  b ++ [0x80] ++ List.replicate ((119 - b.length % 64) % 64) 0 ++ bytesBE (8 * b.length) 8

/-- SHA-256 as 32 bytes. -/
@[irreducible] def shaBytes (b : List Byte) : List Byte :=
  let p := shaPad b
  (shaBlocks (p.length / 64) shaH0 p).flatMap (fun x => bytesBE x 4)

/-- SHA-256 of a byte string (R74, R76). -/
@[irreducible] def sha256 (b : List Byte) : BitVec 256 := BitVec.ofNat 256 (natBE (shaBytes b))

/-! ### HMAC and HKDF -/

@[irreducible] def hmac (key msg : List Byte) : List Byte :=
  let k := if 64 < key.length then shaBytes key else key
  let k := k ++ List.replicate (64 - k.length) 0
  shaBytes (k.map (· ^^^ 0x5c) ++ shaBytes (k.map (· ^^^ 0x36) ++ msg))

/-- HKDF-SHA-256 with a 16-byte output (R78, R94, R95). -/
@[irreducible] def hkdf16 (ikm salt info : List Byte) : BitVec 128 :=
  BitVec.ofNat 128 (natBE ((hmac (hmac salt ikm) (info ++ [1])).take 16))

/-! ### AES-128 -/

/-- Multiplication in GF(2^8), by the low `n` bits of `b`. -/
def gmulBits : Nat → Nat → Nat → Nat
  | 0, _, _ => 0
  | n + 1, a, b =>
    let rest := gmulBits n (if a < 128 then 2 * a else (2 * a) % 256 ^^^ 0x1b) (b / 2)
    if b % 2 = 1 then a ^^^ rest else rest

def gmul (a b : Nat) : Nat := gmulBits 8 a b

/-- The inverse: the power 254. -/
def ginv (a : Nat) : Nat :=
  let a2 := gmul a a
  let a4 := gmul a2 a2
  let a8 := gmul a4 a4
  let a16 := gmul a8 a8
  let a32 := gmul a16 a16
  let a64 := gmul a32 a32
  gmul (gmul a64 a64) (gmul (gmul a64 a32) (gmul (gmul a16 a8) (gmul a4 a2)))

/-- A byte rotated left. -/
def rotl8 (n x : Nat) : Nat := (x <<< n ||| x >>> (8 - n)) % 256

def subByte (a : Nat) : Nat :=
  let b := ginv a
  b ^^^ rotl8 1 b ^^^ rotl8 2 b ^^^ rotl8 3 b ^^^ rotl8 4 b ^^^ 0x63

/-- The next round key, with its round constant. -/
def nextKey (k : List Nat) (rcon : Nat) : List Nat :=
  let g (i : Nat) : Nat := k.getD i 0
  let x := [subByte (g 13) ^^^ rcon, subByte (g 14), subByte (g 15), subByte (g 12)]
  let a := List.zipWith (· ^^^ ·) x (k.take 4)
  let b := List.zipWith (· ^^^ ·) a ((k.drop 4).take 4)
  let c := List.zipWith (· ^^^ ·) b ((k.drop 8).take 4)
  let d := List.zipWith (· ^^^ ·) c (k.drop 12)
  a ++ b ++ c ++ d

def shiftRows (s : List Nat) : List Nat := (List.range 16).map (fun i => s.getD ((5 * i) % 16) 0)

def mixColumn (s : List Nat) (i : Nat) : Nat :=
  let c := 4 * (i / 4)
  let g (j : Nat) : Nat := s.getD (c + (i + j) % 4) 0
  gmul 2 (g 0) ^^^ gmul 3 (g 1) ^^^ g 2 ^^^ g 3

/-- The rounds after the first key, with the round constants to come. -/
def aesRounds : List Nat → List Nat → List Nat → List Nat
  | [], s, _ => s
  | r :: rs, s, k =>
    let k := nextKey k r
    let s := shiftRows (s.map subByte)
    let s := if rs.isEmpty then s else (List.range 16).map (mixColumn s)
    aesRounds rs (List.zipWith (· ^^^ ·) s k) k

/-- AES-128 of one block. -/
@[irreducible] def aes128 (key block : List Nat) : List Nat :=
  aesRounds [1, 2, 4, 8, 16, 32, 64, 128, 27, 54] (List.zipWith (· ^^^ ·) block key) key

/-! ### GCM -/

/-- Multiplication in GF(2^128) of GCM: `n` bits of `x` from the most significant on. -/
def ghMul : Nat → Nat → Nat → Nat → Nat
  | 0, _, _, z => z
  | n + 1, x, v, z =>
    ghMul n x (if v % 2 = 1 then (v / 2) ^^^ (225 * 2 ^ 120) else v / 2) (if x.testBit n then z ^^^ v else z)

/-- GHASH over `n` blocks. -/
def ghash (h : Nat) : Nat → Nat → List Byte → Nat
  | 0, y, _ => y
  | n + 1, y, b =>
    let x := b.take 16
    ghash h n (ghMul 128 (y ^^^ natBE (x ++ List.replicate (16 - x.length) 0)) h 0) (b.drop 16)

/-- The number of blocks that hold `n` bytes. -/
def blocks16 (n : Nat) : Nat := (n + 15) / 16

def aesNat (key : List Nat) (x : Nat) : List Byte := (aes128 key ((bytesBE x 16).map (·.toNat))).map (BitVec.ofNat 8)

/-- Counter mode from counter `c` under a 12-byte IV. -/
def ctrMode (key : List Nat) (iv : Nat) : Nat → Nat → List Byte → List Byte
  | 0, _, _ => []
  | n + 1, c, b => List.zipWith (· ^^^ ·) (b.take 16) (aesNat key (iv * 2 ^ 32 + c)) ++ ctrMode key iv n (c + 1) (b.drop 16)

/-- The tag of a ciphertext and its additional data. -/
def gcmTag (key : List Nat) (iv : Nat) (aad cipher : List Byte) : List Byte :=
  let h := natBE (aesNat key 0)
  let y := ghash h (blocks16 cipher.length) (ghash h (blocks16 aad.length) 0 aad) cipher
  let y := ghMul 128 (y ^^^ (8 * aad.length * 2 ^ 64 + 8 * cipher.length)) h 0
  List.zipWith (· ^^^ ·) (bytesBE y 16) (aesNat key (iv * 2 ^ 32 + 1))

def keyBytes (key : BitVec 128) : List Nat := (bytesBE key.toNat 16).map (·.toNat)

/-- AES-128-GCM sealing of (key, 12-byte IV, additional data, plaintext): ciphertext and 16-byte tag (R95, R96, R324). -/
@[irreducible] def gcmSeal (key : BitVec 128) (iv aad plain : List Byte) : List Byte × List Byte :=
  let c := ctrMode (keyBytes key) (natBE iv) (blocks16 plain.length) 2 plain
  (c, gcmTag (keyBytes key) (natBE iv) aad c)

/-- AES-128-GCM opening of (key, 12-byte IV, additional data, ciphertext, tag) (R78). -/
@[irreducible] def gcmOpen (key : BitVec 128) (iv aad cipher tag : List Byte) : Option (List Byte) :=
  if gcmTag (keyBytes key) (natBE iv) aad cipher = tag then
    some (ctrMode (keyBytes key) (natBE iv) (blocks16 cipher.length) 2 cipher)
  else none

/-! ### P-256 -/

def p256P : Nat := 0xffffffff00000001000000000000000000000000ffffffffffffffffffffffff
def p256N : Nat := 0xffffffff00000000ffffffffffffffffbce6faada7179e84f3b9cac2fc632551
def p256B : Nat := 0x5ac635d8aa3a93e7b3ebbd55769886bc651d06b0cc53b0f63bce3c3e27d2604b

/-- `x` to the power of the low `n` bits of `e`, modulo `m`. -/
def powMod (m x e : Nat) : Nat → Nat
  | 0 => 1
  | n + 1 =>
    let y := powMod m x (e / 2) n
    if e % 2 = 1 then y * y % m * x % m else y * y % m

/-- The inverse modulo a prime of 256 bits. -/
def invMod (m x : Nat) : Nat := powMod m x (m - 2) 256

/-- A point in Jacobian coordinates; Z = 0 is the identity. -/
structure EcPoint where
  x : Nat
  y : Nat
  z : Nat
  deriving DecidableEq, Repr

def subP (a b : Nat) : Nat := (a + p256P - b) % p256P
def mulP (a b : Nat) : Nat := a * b % p256P

def EcPoint.double (p : EcPoint) : EcPoint :=
  if p.z = 0 ∨ p.y = 0 then { x := 1, y := 1, z := 0 }
  else
    let zz := mulP p.z p.z
    let m := mulP 3 (mulP (subP p.x zz) ((p.x + zz) % p256P))
    let yy := mulP p.y p.y
    let s := mulP 4 (mulP p.x yy)
    let x := subP (mulP m m) (mulP 2 s)
    { x := x, y := subP (mulP m (subP s x)) (mulP 8 (mulP yy yy)), z := mulP 2 (mulP p.y p.z) }

def EcPoint.add (p q : EcPoint) : EcPoint :=
  if p.z = 0 then q
  else if q.z = 0 then p
  else
    let zp := mulP p.z p.z
    let zq := mulP q.z q.z
    let u1 := mulP p.x zq
    let s1 := mulP p.y (mulP zq q.z)
    let h := subP (mulP q.x zp) u1
    let r := subP (mulP q.y (mulP zp p.z)) s1
    if h = 0 then (if r = 0 then p.double else { x := 1, y := 1, z := 0 })
    else
      let hh := mulP h h
      let v := mulP u1 hh
      let hhh := mulP hh h
      let x := subP (subP (mulP r r) hhh) (mulP 2 v)
      { x := x, y := subP (mulP r (subP v x)) (mulP s1 hhh), z := mulP h (mulP p.z q.z) }

/-- `k` times a point, by the low `n` bits of `k`. -/
def EcPoint.times (p : EcPoint) (k : Nat) : Nat → EcPoint
  | 0 => { x := 1, y := 1, z := 0 }
  | n + 1 =>
    let q := (p.times (k / 2) n).double
    if k % 2 = 1 then q.add p else q

/-- The affine coordinates of a point that is not the identity. -/
def EcPoint.affine (p : EcPoint) : Nat × Nat :=
  let i := invMod p256P p.z
  let ii := mulP i i
  (mulP p.x ii, mulP p.y (mulP ii i))

def p256G : EcPoint :=
  { x := 0x6b17d1f2e12c4247f8bce6e563a440f277037d812deb33a0f4a13945d898c296,
    y := 0x4fe342e2fe1a7f9b8ee7eb4a7c0f9e162bce33576b315ececbb6406837bf51f5, z := 1 }

/-- The point that 65 bytes give: 04h, X, Y. -/
def pointOf (b : List Byte) : EcPoint := { x := natBE ((b.drop 1).take 32), y := natBE (b.drop 33), z := 1 }

def pointBytes (p : EcPoint) : List Byte :=
  let a := p.affine
  0x04 :: bytesBE a.1 32 ++ bytesBE a.2 32

/-- Whether bytes are a valid uncompressed P-256 point (R80). -/
@[irreducible] def validPoint (b : List Byte) : Bool :=
  let p := pointOf b
  decide (b.length = 65) && decide (b.headD 0 = 0x04) && decide (p.x < p256P) && decide (p.y < p256P)
  && decide (mulP p.y p.y = (mulP p.x (subP (mulP p.x p.x) 3) + p256B) % p256P)

/-- ECDSA verification of (point, hash value, r, s) (R76, R80). -/
@[irreducible] def ecdsaVerify (key : List Byte) (e : BitVec 256) (r s : List Byte) : Bool :=
  let r := natBE r
  let s := natBE s
  let w := invMod p256N s
  let q := (p256G.times (e.toNat * w % p256N) 256).add ((pointOf key).times (r * w % p256N) 256)
  validPoint key && decide (1 ≤ r) && decide (r < p256N) && decide (1 ≤ s) && decide (s < p256N) && decide (q.z ≠ 0)
  && decide (q.affine.1 % p256N = r)

/-- The device's private key, from 1 to n - 1. -/
def deviceScalar : Nat := Config.deviceKey % (p256N - 1) + 1

/-- The hash of the device public key's point (R74, Table HR-4). -/
@[irreducible] def deviceKeyHash : BitVec 256 := sha256 (pointBytes (p256G.times deviceScalar 256))

/-- ECC CDH with the device private key: the x-coordinate; none when the point is invalid (R78, R80, R95). -/
@[irreducible] def deviceEcdh (point : List Byte) : Option (List Byte) :=
  if validPoint point then some (bytesBE ((pointOf point).times deviceScalar 256).affine.1 32) else none

end Sys2Proof.Machine
end

