-- ==== Sys2Proof/Machine/State.lean ====
section
/-! DEFINITION. The state of the FW-1216, as plain data: every register, memory, queue, mode and pin that spec/ gives
the node, the queue of waiting commands, and the counter of free values (log 3, DESIGN CHOICE). Fields that are not the spec's own
say so. -/

namespace Sys2Proof.Machine

/-- Sparse contents by key: rising keys, nothing listed that an unlisted key reads as (Ops.lean: `Mem.get`, `Mem.set`). -/
abbrev Mem (α : Type) := List (Nat × α)

/-! ### Backwater, supply and clocks -/

/-- The level of VS against the thresholds of Table EL-2 (R34, R39, R65). -/
inductive Supply
  | absent       -- not enough for anything
  | belowBrownOut
  | between      -- at or above the brown-out threshold, below the start threshold
  | good         -- risen through the start threshold and not below the brown-out threshold since
  deriving DecidableEq, Repr

/-- Stop causes, with the codes of Table MR-3 (POWER-ON is the retained record's, R69). -/
inductive StopCause | powerOn | brownOut | watchdog | c4 | restart | thermal | fuse
  deriving DecidableEq, Repr

/-- Where the node stands (R341, R64 to R70). A start that reaches RUN is one command (log 10, DESIGN CHOICE); `starting` is a start
that stands still before RUN, until its deadline or a brown-out ends it (R54, R66). -/
inductive Phase
  | off            -- Backwater unpowered
  | starting
  | run
  | stopping       -- from a decision instant D to the end of Table SS-5
  | waitSupply     -- after a brown-out stop, relaying until VS decides
  | waitC4
  | waitThermal
  | dormant
  deriving DecidableEq, Repr

/-- A loss event held while the brown-out filter runs (R373). -/
inductive HeldLoss
  | silence (b : BitVec 6)
  | going (b : BitVec 6) (cause : Byte) (nonce : BitVec 64)
  | loss (m : Message)
  deriving DecidableEq, Repr

/-- The retained record of Backwater (Table SS-6). -/
structure Retained where
  cause    : StopCause
  count    : Nat               -- restart count, 0 to 4
  restarts : List Nat          -- instants of the watchdog and C4 restarts within the last 600 s
  s        : Option (BitVec 6)
  p        : BitVec 6
  z        : BitVec 3
  seq      : BitVec 16         -- next HSR sequence number
  deriving DecidableEq, Repr

/-- Backwater and the supply. -/
structure Power where
  vs          : Supply
  powered     : Bool            -- Backwater and the ports have power
  phase       : Phase
  filter      : Option Nat      -- brown-out filter running since
  below       : Option Nat      -- VS first below the brown-out threshold since the hold-up store was last charged (R38, R65)
  held        : List HeldLoss   -- loss events held by the filter (R373)
  decidedAt   : Nat             -- D of the stop under way or last done
  stopCause   : StopCause
  stopReason  : BitVec 32       -- RESTART reason code (R92)
  c4InStop    : Bool            -- a C4 decided during another stop (Edges of 04)
  served      : Nat             -- watchdog last served (R68)
  startedAt   : Nat             -- origin of the last start's timeline
  runAt       : Nat             -- instant of RUN
  token       : Bool            -- the main die renews the run token (R16)
  hale        : Bool            -- HALE conducts (R28, R29)
  storeFull   : Bool            -- hold-up store full (R36)
  retained    : Retained
  coolSince   : Option Nat      -- Backwater die readings at or below 100 C since (R340)
  deriving DecidableEq, Repr

/-- The Timebase (R308) and the sample index (R122). -/
structure Time where
  mono    : Nat      -- ns since Backwater took power; never stepped; every delay runs on it
  offset  : Int      -- ring time minus `mono`, ns; stepped at lock
  si      : BitVec 64
  siFrac  : Nat      -- fraction of a sample, in 15 625ths
  edge    : Nat      -- place of the sample in the Catchment's lane frame, 0 to 39
  stretch : Nat      -- what the sample period under way is longer than the others, in 15 625ths (R123)
  step    : Option Int   -- a step of ring time by minus this that waits for the next frame boundary (R123, R308)
  deriving DecidableEq, Repr

/-- Class of one branch (Table SK-6, with UNSTABLE of R23). -/
inductive BranchClass
  | inTable (k : BitVec 6)
  | short
  | openCircuit
  | outOfTable
  | unstable (k : Option (BitVec 6))
  deriving DecidableEq, Repr

/-- A decoded set of readings (R24, Table SK-7). -/
structure CodeOutcome where
  cf    : BranchClass
  cr    : BranchClass
  cz    : BranchClass
  s     : Option (BitVec 6)        -- none: identity by serial
  p     : BitVec 6
  z     : BitVec 3
  fault : Option Branch            -- CODE-FAULT with the failing branch reported
  deriving DecidableEq, Repr

/-- The socket code as latched, and the state of the re-reads (R24, R27). -/
structure Code where
  latched  : CodeOutcome
  latchAt  : Nat                    -- instant of the last latch or re-read
  drift    : Bool                   -- SOCKET-DRIFT: HALE released
  agree    : Nat                    -- consecutive agreeing re-reads
  lastDiff : Option CodeOutcome     -- the re-read before, when it differed
  deriving DecidableEq, Repr

/-! ### The Lock and Keepsake -/

/-- An enrolment bank: the two parties' key hashes (R73, R85). -/
structure Enrolment where
  warden    : BitVec 256
  custodian : BitVec 256
  deriving DecidableEq, Repr

/-- A tenant window (Table LK-5b, WIN0 to WIN3). -/
structure Window where
  base     : BitVec 7      -- tenant base bank
  len      : BitVec 7      -- length in blocks
  valid    : Bool
  writable : Bool
  eddy     : Bool
  shared   : Bool
  phys     : BitVec 10     -- physical base block
  deriving DecidableEq, Repr

/-- A tenant record of a charter (Table LK-5b). -/
structure TenantRecord where
  recipeKey  : BitVec 256
  rootKey    : BitVec 128
  minVersion : BitVec 16
  strips     : BitVec 16
  regions    : BitVec 16
  slBase     : Nat
  slLen      : Nat
  quantum    : Nat
  defClass   : Nat
  windows    : Vector Window 4
  deriving DecidableEq, Repr

/-- A class record of a charter (Table LK-5c); owner none is unused. -/
structure ClassRecord where
  owner  : Option Ctx
  b      : Nat
  cap    : Nat
  target : Nat
  budget : Vector Nat 4
  share  : Vector Nat 4
  deriving DecidableEq, Repr

/-- A charter's content (R87). Tenants absent from the mask are none; class records are QC 1 to QC 15 at 1 to 15. -/
structure Charter where
  halMask  : BitVec 16
  encMask  : BitVec 16
  tenants  : Vector (Option TenantRecord) 16
  classes  : Vector ClassRecord 16
  deriving DecidableEq, Repr

/-- Bundle kinds (Table LK-2). -/
inductive Kind | enrol | patch | charter | recipe | restart
  deriving DecidableEq, Repr

/-- The last bundle refused at arrival (LKRFCODE, LKRFDIG). -/
structure Refusal' where
  code   : Byte
  kind   : Byte
  tenant : Byte
  digest : BitVec 64
  deriving DecidableEq, Repr

/-- A staging write under way (R84, R61). -/
structure Staging where
  kind     : Kind
  tenant   : Ctx
  slotB    : Bool
  bundle   : List Byte
  transfer : BitVec 16
  source   : BitVec 48
  deriving DecidableEq, Repr

/-- The Lock. -/
structure Lock where
  banks       : List Enrolment          -- enrolment banks written, bank 1 first
  charterCtr  : BitVec 7
  patchCtr    : BitVec 7
  nonce       : BitVec 64
  keys        : Vector (BitVec 128) 16  -- session keys of the run
  charter     : Option Charter          -- in force; none is house mode
  charterEpoch : BitVec 7
  charterDig  : BitVec 256
  charterB    : Bool                    -- slot in force is B
  patchEpoch  : BitVec 7
  patchB      : Bool
  patchOn     : Bool
  patchNone   : Bool
  house       : Bool
  enrolFused  : Bool
  enrolB      : Bool                    -- the slot of the ENROL that this run's start fused is B (R84)
  restartLoop : Bool
  charterLost : Bool
  idle        : BitVec 16
  recipeB     : BitVec 16
  recipeIn    : BitVec 16               -- a recipe is in force
  versions    : Vector (BitVec 16) 16
  refused     : Option Refusal'
  inStop      : List Refusal'           -- refusals since a stop's decision instant (R71)
  staged      : BitVec 16
  staging     : List Staging            -- oldest first: the Lock stages one at a time (R84)
  deriving DecidableEq, Repr

/-- What a page holds (its kind in Table SS-4; the spec numbers no kind, log 12). -/
inductive PageKind | closing | content | socket | stop | manufacture
  deriving DecidableEq, Repr

/-- A programmed page of 256 bytes (Table SS-4): sequence number, kind, content length and content, and whether its CRC-32 matches its
bytes 0 to 251, as it does unless its program was cut off (log 12). -/
structure Page (α : Type) where
  seq     : BitVec 32
  kind    : PageKind
  length  : Nat
  content : α
  crcOk   : Bool
  deriving DecidableEq, Repr

/-- A record kept as a two-copy page of one kind; a copy is none while its page is erased (R60). -/
structure TwoCopy (α : Type) where
  kind  : PageKind
  copy0 : Option (Page α)
  copy1 : Option (Page α)
  deriving DecidableEq, Repr

/-- A staging slot: its content pages, written once as single pages, and the closing page with their digest (R61, R83). -/
structure Slot where
  content : List (Page (List Byte))
  closing : TwoCopy (BitVec 256)
  deriving DecidableEq, Repr

/-- A pair of slots A and B. -/
structure SlotPair where
  a : Slot
  b : Slot
  deriving DecidableEq, Repr

/-- The open bundle transfer (R327). Log 56, DESIGN CHOICE. -/
structure Transfer where
  number : BitVec 16
  total  : Nat
  lastAt : Nat
  source : BitVec 48
  deriving DecidableEq, Repr

/-- A finding with everything its frame holds (R112, Table MR-6). In the ledger it may stand as a record that is absent: its
program was cut off in copy 0 of its pages (R60, R68). -/
structure Finding where
  tenant : Ctx
  body   : List Byte         -- finding header, body and tag, as formed
  absent : Bool := false
  deriving DecidableEq, Repr

/-- A fault entry (Table FL-6), kept as fields. -/
structure FaultEntry where
  number    : BitVec 32
  time      : BitVec 48
  cls       : Nat
  unlocked  : Bool
  nested    : Bool
  escalated : Bool
  code      : Byte
  ctx       : Option Ctx
  unit      : Option UnitId
  object    : Byte
  detail    : BitVec 16
  at_       : Nat              -- instant of the record on `mono` (model's own)
  deriving DecidableEq, Repr

/-- The stop record: cause, reason code and whether a C4 was decided during the stop (R64, R92, Edges of 04). -/
structure StopRecord where
  cause  : StopCause
  reason : BitVec 32
  c4     : Bool
  deriving DecidableEq, Repr

/-- One channel's coefficients (Table CT-8). -/
structure Coeff where
  k16 : Word
  ofs16 : Word
  k64 : Word
  ofs64 : Word
  tck : Word
  tco : Word
  tref : Word
  stexp16 : Word
  stexp64 : Word
  calsrc : BitVec 3
  calix : BitVec 64
  eq : Vector Word 16
  cxa : Word
  cxb : Word
  deriving DecidableEq, Repr

/-- A channel's entry of the manufacture record: its coefficients, and whether the entries of both ranges are well formed (R131). -/
structure Manufactured where
  coeff : Coeff
  ok16  : Bool
  ok64  : Bool
  deriving DecidableEq, Repr

/-- Keepsake, by the records of Table SS-8 (log 12, DESIGN CHOICE). -/
structure Keepsake where
  enrol      : SlotPair
  patch      : SlotPair
  charter    : SlotPair
  recipe     : Vector SlotPair 16
  area       : List Host.Cell          -- reassembly area: a byte is listed when it has arrived (R327)
  transfer   : Option Transfer
  erasing    : Bool                    -- background erase of the area under way
  eraseFrom  : Nat
  ledger     : List Finding            -- unreplayed findings, oldest first
  skipped    : Nat                     -- LEDSKIP
  wasFull    : Bool
  fullTold   : Bool                    -- a replayed frame has carried LEDGER-FULL (R323)
  replayWait : Bool                    -- replay paused until the keeper returns
  faultPages : List (List FaultEntry)  -- pages written, oldest first; a page whose program was cut off holds no entry
  nextEntry  : BitVec 32
  persisted  : BitVec 32
  socket     : TwoCopy (BitVec 6)
  stop       : TwoCopy StopRecord
  manufacture : TwoCopy (Vector Manufactured 12)
  eraseSector : List KsRegion          -- sector erases under way
  reserve    : Vector Nat 3            -- erased page pairs of the finding ledger, fault ledger and records (R62, R63)
  next       : Vector Nat 3            -- the page pair of each of them that is programmed next (R63)
  wrote      : Option (Nat × Nat)      -- instant and first page of the page pair programmed last (R62, R68)
  toReport   : List Refusal'           -- refusals of a stop, in the fault ledger, that the next run's T0 findings report (R71)
  deriving DecidableEq, Repr

/-! ### Modes -/

/-- A PROOF window (R109). -/
structure ProofWindow where
  scheduled : Bool
  requester : Option Ctx
  openAt    : Nat        -- mono
  closeAt   : Nat
  deriving DecidableEq, Repr

/-- A change of ACT (MDLOG). -/
structure ModeLog where
  act   : Byte
  cause : Byte
  ms    : BitVec 20
  deriving DecidableEq, Repr

/-- The mode block (R98 to R117). -/
structure Modes where
  req       : Vector Byte 16          -- MDREQ REQ
  prfref    : BitVec 16
  hw        : Byte                    -- hardware entries before masking
  act       : Byte
  keeperLost : Bool
  conf      : Word                    -- MDCONF
  window    : Option ProofWindow
  dueAt     : Nat                     -- mono instant from which the next whole second opens the scheduled window
  usedLog   : List (Nat × Nat × Bool) -- windows run: end (mono), length in ms, scheduled
  log       : Vector ModeLog 4
  parked    : Bool
  follow    : BitVec 4             -- Pool groups that enter retention once their queue is empty (R253)
  parkedAt  : Nat
  replay    : Bool
  replayAt  : Nat                    -- instant of the last frame replayed (R113)
  divert    : Bool
  vigilLate : Bool                   -- VIGIL entered in the PROOF window that is open: its divisor waits for the window's end (Edges of 06)
  deriving DecidableEq, Repr

/-! ### Catchment -/

/-- One channel of the Catchment (Tables CT-4 to CT-6). -/
structure Channel where
  claims   : Vector (BitVec 2) 16
  rng      : Bool
  src      : BitVec 2
  pend     : Bool
  prng     : Bool
  settle   : Nat                 -- samples of the settle interval left
  loopSel  : Bool                -- the range loop's selection
  pinconf  : Bool
  clip     : Word
  clpix    : BitVec 64
  rchg     : BitVec 64
  temp     : BitVec 16
  clipNow  : Bool
  stact    : Bool
  stres    : BitVec 34
  stix     : BitVec 64
  rconf    : Word
  calFail  : Bool
  calNone  : Bool
  deriving DecidableEq, Repr

/-- One serialiser lane (CTLANE, R126). -/
structure LaneState where
  up       : Bool
  bad      : BitVec 23
  retrains : BitVec 12
  run      : Nat                 -- consecutive bad frames
  lastTry  : Nat
  counter  : Byte                -- frame counter of the last good frame
  si       : BitVec 64           -- sample index of the next frame's first sample
  jump     : Option (BitVec 64 × BitVec 64)   -- the first sample after an SI change that has yet to arrive: its old and its new index
  deriving DecidableEq, Repr

/-- The Catchment (07). -/
structure Catchment where
  chans   : Vector Channel 12
  lanes   : Vector LaneState 3
  coeffs  : Vector Coeff 12
  unlocked : Bool
  trim    : BitVec 16
  changes : Byte
  step    : Word
  die     : BitVec 16
  calDone : Bool
  stInvalid : Bool                       -- the axis under actuation is spoiled (R133)
  axis    : Option Chan                  -- the axis under actuation
  axisAt  : Nat                          -- beginning of its third (R133)
  deriving DecidableEq, Repr

/-! ### Braid and Sluice -/

/-- What an inlet records for a ring plane (R147). -/
structure RingPlane where
  si     : BitVec 64
  sijump : Bool
  clip   : Bool
  settle : Bool
  lane   : Bool
  deriving DecidableEq, Repr

/-- A strip's inlet (R144 to R149, Table BR-10). -/
structure Inlet where
  src       : BitVec 5
  en        : Bool
  lenM1     : Byte
  base      : BitVec 11
  fill      : Plane
  filled    : Nat              -- bits of the buffer under fill
  aligned   : Bool             -- filling has started
  cur       : RingPlane        -- what is recorded for the buffer under fill
  hold      : Plane
  holdSome  : Bool             -- the hold buffer has been loaded
  unread    : Bool
  wr        : Byte             -- INWR
  rel       : Byte             -- INREL
  count     : Nat              -- unreleased planes
  cfgerr    : Bool
  planes    : Vector RingPlane 256
  done      : BitVec 24
  lost      : BitVec 12
  resumed   : Nat              -- 1: the next plane written carries SIJUMP (R149); 2: the one after the buffer that is full
  newer     : Bool             -- the hold buffer has been loaded since a step last read it (R148)
  deriving DecidableEq, Repr

/-- A strip's outlet (R150 to R152). -/
structure Outlet where
  en      : Bool
  qc      : BitVec 4
  err     : Bool
  opened  : Option Plane       -- the open buffer
  saved   : Option Plane       -- the open buffer as it stood when the strand op under way began
  ready   : List Plane         -- released, committed, oldest first
  inOp    : List Plane         -- released within the strand op under way
  addr    : BitVec 18
  end_    : BitVec 18
  sent    : BitVec 24
  dropped : BitVec 12
  deriving DecidableEq, Repr

/-- A logical strip (Table BR-9). `phys` is the physical strip that holds the logical number (R355). -/
structure StripState where
  owner   : Option Ctx
  spare   : Bool
  offline : Bool
  phys    : Strip
  nsmode  : BitVec 2
  ewwrap  : Bool
  share   : Bool
  result  : Bool
  steps   : Word
  stli    : Word
  stlo    : Word
  abnd    : Word
  steal   : Word
  perr    : Word
  inlet   : Inlet
  outlet  : Outlet
  deriving DecidableEq, Repr

/-- The Braid: planes by key 4096 * strip + plane, and carry and activity per PE (R135 to R141). Activity is kept as
its complement, so that an unlisted strip has A = 1 (R140). In the provisional parts an entry stands for an allocated
plane or shadow, whatever it holds. -/
structure Braid where
  strips : Vector StripState 16
  planes : Mem Plane
  carry  : Mem Plane             -- C by strip
  inact  : Mem Plane             -- complement of A by strip
  prov   : Mem Plane             -- provisional planes, keyed as `planes`
  provC  : Mem Plane             -- shadow of C
  provA  : Mem Plane             -- shadow of the complement of A
  spareReads : List (BitVec 16)  -- the spares that fail the read at the next remaps, in their order (R155; model's own, log 23)
  deriving DecidableEq, Repr

/-- Why a strand op waits (R148, R150, R202). -/
inductive Stall | no | inlet | outlet | prov
  deriving DecidableEq, Repr

/-- How a strand op stands: running, ended in SEQ 01b, or ended by a kind H or a kind O cause that its speculation holds (R201). -/
inductive OpEnd | running | done | faulted (code : Nat) | raised (code : BitVec 6) (qual : BitVec 4)
  deriving DecidableEq, Repr

/-- A strand op of a context (R158, R183, R213). -/
structure StrandOp where
  entry   : BitVec 11
  slots0  : Vector (BitVec 11) 8   -- slot values it started with
  slots   : Vector (BitVec 11) 8
  upc     : BitVec 12
  stack   : List (BitVec 12)
  mci     : Nat
  mcil    : Nat
  mco     : Nat
  ix      : Nat                    -- steps of the word, or of the ROM entry, under way that have executed
  sample  : Option (Bool × Bool)   -- HBR and OBF as sampled in the word's last step (R162)
  steps   : Nat
  fix     : Bool                   -- FIX timing (R164)
  ns      : BitVec 32              -- NSMODE of every strip at the op's start (R142)
  ew      : BitVec 16              -- EWWRAP of every strip at the op's start
  shift   : Bool
  stall   : Stall
  stallAt : Nat
  ended   : OpEnd
  conf    : Option Bool            -- OR over the CONF steps so far
  shares  : BitVec 16              -- per logical strip
  readHold : Bool
  spec    : Bool                   -- issued while speculating
  deriving DecidableEq, Repr

/-- A STRAND that has passed EX and waits behind the op under way (R183, R197). -/
structure WaitingOp where
  entry  : BitVec 11
  slots  : Vector (BitVec 11) 8
  spec   : Bool
  parity : Option Strip            -- a plane parity error it will meet (R155)
  deriving DecidableEq, Repr

/-- A Confluence result on its way (R143). -/
structure ConfResult where
  value  : Bool
  shares : BitVec 16
  spec   : Bool
  deriving DecidableEq, Repr

/-- The Sluice (09). -/
structure Sluice where
  patchRam  : Vector MicroWord 256
  map       : List (BitVec 12 × BitVec 6)   -- ROM word address, patch block
  openRegion : Mem MicroWord                -- by offset from C00h; unlisted words are neutral (R166)
  base      : Vector Nat 16
  len       : Vector Nat 16
  loaded    : Vector Nat 16
  refusedBy : BitVec 16
  refuse    : Option (Ctx × Nat × Nat)      -- tenant, word offset, Table SL-5 code
  perr      : Word
  unc       : Word
  slent     : BitVec 12
  slstk     : BitVec 12
  slrun     : BitVec 12
  deriving DecidableEq, Repr

/-! ### Headwater -/

/-- Context states of CXSTAT. -/
inductive CtxState | idle | ready | running | waiting | halted
  deriving DecidableEq, Repr

/-- The checkpointed part of a context: what a speculation or an undone branch restores (R199, R201). -/
structure Arch where
  ds     : List Word            -- data stack, top first
  rs     : List Word            -- return stack, top first
  bk     : BitVec 7
  ops    : Vector (BitVec 11) 8
  src    : BitVec 18
  dst    : BitVec 18
  cnt    : Word
  crcp   : BitVec 32
  crcw   : BitVec 6
  crcRefl : Bool
  crca   : BitVec 32
  scmask : Word
  lc     : Vector Word 3
  ls     : Vector (BitVec 19) 3
  le     : Vector (BitVec 19) 3
  levels : Nat                  -- open loop levels, 0 to 3
  rswrap : Bool
  rconv  : Bool
  sat    : Bool
  xp     : BitVec 11
  yp     : BitVec 11
  xstep  : BitVec 33
  ystep  : BitVec 33
  rsh    : Nat
  wsh    : Nat
  out18  : Bool
  conj   : Bool
  neg    : Bool
  alt    : Bool
  ova    : Bool
  rov    : Bool
  acr    : BitVec 40
  aci    : BitVec 40
  rbx    : BitVec 6
  deriving DecidableEq, Repr

/-- A cause with what the Bell registers take of it (R206, Table FL-4). -/
structure Raise where
  code : BitVec 6
  qual : BitVec 4
  slot : BitVec 2
  data : Option Word          -- none: the spec gives BDATA nothing for this cause
  ms   : Bool                 -- it arose in a mode shadow (R210)
  sp   : Bool := false        -- it arose during speculation and was held to the commit (R201)
  deriving DecidableEq, Repr

/-- A branch whose delay slot has not completed (R182, R199). -/
structure Branching where
  addr   : BitVec 19
  target : BitVec 19
  taken  : Bool
  undo   : Arch
  deriving DecidableEq, Repr

/-- A mode shadow (R105, R211). -/
structure Shadow where
  left    : Nat
  mask    : Byte
  pending : Option Raise
  deriving DecidableEq, Repr

/-- A speculation (R200, R201). -/
structure Spec where
  check   : Arch
  brc     : BitVec 19
  other   : BitVec 19          -- the path not taken
  taken   : Bool               -- the prediction
  strands : Nat
  held    : Option Raise       -- at the context's pc
  limited : Bool               -- the next instruction waits at a limit of R202
  arrived : Bool               -- the tested result has arrived
  deriving DecidableEq, Repr

/-- How a wait is held (R185). -/
structure Waiting where
  mask     : BitVec 7
  tt       : Bool
  deadline : Option (Sum Nat Nat)   -- a delay's end on `mono`, or an instant in ring-time microseconds
  deriving DecidableEq, Repr

/-- CXCAP (Table HW-6, R115). -/
structure Capture where
  burst  : Bool
  arms   : Bool
  capref : Bool
  endr   : BitVec 3
  len    : BitVec 28
  fromSi : BitVec 64
  counted : Byte              -- lower modes whose first deferral under code F has counted in this burst (R104)
  deriving DecidableEq, Repr

/-- A context (R172, Table HW-6). -/
structure Context where
  state   : CtxState
  unit    : UnitId
  pc      : BitVec 19
  arch    : Arch
  xram    : Mem Word
  yram    : Mem Word
  ben     : BitVec 7
  bellv   : BitVec 19
  bepc    : BitVec 19
  bcause  : Word
  bslot   : BitVec 2
  bdata   : Word
  inBell  : Bool
  loopfz  : Bool
  lctl    : Option (BitVec 2)       -- LCTL written since the Bell
  lastEv  : BitVec 10
  waiting : Option Waiting
  near    : Word
  time    : Word
  qwgt    : BitVec 5
  wins    : Vector Window 4
  mstart  : Byte
  pc0     : BitVec 19
  cap     : Capture
  branch  : Option Branching
  shadow  : Option Shadow
  spec    : Option Spec
  sop     : Option StrandOp
  rerun   : Option (BitVec 11 × Vector (BitVec 11) 8)   -- abandoned op (R213)
  queued  : Option WaitingOp
  results : List ConfResult         -- oldest first
  result  : Bool                    -- the partition result
  pend    : List Raise              -- asynchronous causes not yet taken
  mailbox : Bool
  credit  : Int                     -- nanoseconds
  expired : Bool                    -- the last slice ended by expiry (R215)
  sliceAt : Nat
  ctsixh  : BitVec 28
  ptsecl  : Word
  ptsech  : BitVec 12
  bar     : Bool                    -- the last instruction was a pair with the barrier bit (R176)
  sync    : List Raise              -- TIMEOUT and strand-op causes, due at the next boundary (R185, R357)
  deriving DecidableEq, Repr

/-- A buffered store (R180, R260). -/
structure StoreEntry where
  ctx  : Ctx
  addr : BitVec 18
  val  : Word
  spec : Bool
  qc   : BitVec 4
  deriving DecidableEq, Repr

/-- What a request of a unit's own gets back: units with their poison, or an ERR code (R232, R238). -/
inductive FillReply
  | units (us : List (BitVec 72 × Bool))
  | err (code : Byte)
  deriving DecidableEq, Repr

/-- A load, instruction fill or register transaction of a unit, for one issue of the instruction at `pc` of its context (R196,
R239): the context's CXTIME and CNT tell one issue or one element from the next (log 131, DESIGN CHOICE). -/
structure Fill where
  ctx   : Ctx
  pc    : BitVec 19
  time  : Word
  cnt   : Word
  addr  : BitVec 18
  block : Nat                      -- the block that it reads
  tag   : BitVec 6
  keep  : Bool                     -- no SNPINV of its block has come since it was sent (R239)
  reply : Option FillReply
  deriving DecidableEq, Repr

/-- The counters of a unit's micro-sequencer, as its last strand op has left them (R157). -/
structure MicroSeq where
  upc   : BitVec 12
  stack : List (BitVec 12)
  mci   : Nat
  mcil  : Nat
  mco   : Nat
  deriving DecidableEq, Repr

/-- A Headwater unit (Table PB-8). -/
structure HUnit where
  ctx      : Option Ctx
  swapPend : Bool
  offline  : Bool
  buffer   : List StoreEntry      -- oldest first
  icache   : List Nat             -- cached lines of eight words, Pool lines, then Eddy lines from 262 144 on
  spec     : Word
  fills    : List Fill            -- the loads and register transactions of its instruction under way
  ifill    : Option Fill          -- its instruction fill under way
  seq      : MicroSeq
  miss     : Word
  roll     : Word
  held     : Word
  swaps    : Word
  ovr      : Word
  bells    : Word
  icm      : Word
  abnd     : Word
  deriving DecidableEq, Repr

/-! ### Tributaries, memories and Weir -/

/-- A route-table entry (Table TR-5). -/
structure Route where
  hops  : BitVec 21
  valid : Bool
  tmo   : BitVec 3
  snoop : Bool
  deriving DecidableEq, Repr

/-- A response on its way. -/
inductive Response
  | rdata (units : List (BitVec 72 × Bool))     -- with poison
  | ack
  | err (code : Byte)
  deriving DecidableEq, Repr

/-- A transaction tag in use at an NI (R229, R241). An own tag is that of a load, fill, store or post that a unit or a region
has sent itself: its response goes straight to it (log 24, DESIGN CHOICE). -/
structure Tag where
  ni      : NiId
  tag     : BitVec 6
  req     : Req
  write   : Bool
  own     : Bool
  retired : Bool
  at_     : Nat                -- instant at which it was taken, or retired
  resp    : Option Response
  respAt  : Nat                -- its place among the responses sent (R236)
  back    : Damage             -- what an own tag's response meets on its way (model's own, log 131)
  deriving DecidableEq, Repr

/-- The router registers (Table TR-8) of one router. -/
structure Router where
  cor    : Word
  unc    : Word
  hdrop  : BitVec 18
  mdrop  : BitVec 18
  units  : Word
  blk    : Word
  deriving DecidableEq, Repr

/-- NICNT of one NI. -/
structure NiCount where
  tmo   : BitVec 9
  near  : BitVec 9
  late  : BitVec 9
  flush : BitVec 9
  deriving DecidableEq, Repr

/-- What waits for the ACK of a write whose block is being snooped: the write's tag (R239). -/
inductive AckFor
  | tag (t : BitVec 6)
  deriving DecidableEq, Repr

/-- Where a packet that cannot be performed at once waits (R236, R246, R265): at its source NI, in the network under credit, or
in the queue of its group or of its Eddy port. -/
inductive Stage | atNi | mesh | queued
  deriving DecidableEq, Repr

/-- A request packet that waits (R246, R265): its command, header fields and data units, whether a unit of it is poisoned, whether
a part of the node has sent it itself, whether it is posted, the damage that its response will meet if it is the node's own, where it
waits, and the CK_N cycle at which it came there. -/
structure Packet where
  cmd    : BitVec 5
  req    : Req
  units  : List (BitVec 72)
  bad    : Bool
  own    : Bool
  posted : Bool
  back   : Damage
  stage  : Stage
  since  : Nat
  deriving DecidableEq, Repr

/-- Tributaries (13). -/
structure Net where
  routes   : Vector (Vector Route 32) 24
  tags     : List Tag
  routers  : Vector Router 16
  counts   : Vector NiCount 24
  snoops   : List (Nat × NiId)                 -- block marked fetched, by NI
  snooping : List (Nat × NiId × Bool)          -- SNPINV sent, SNPACK awaited; whether the NI has invalidated
  waits    : List Packet                       -- request packets under way that wait, oldest first
  turn     : Vector Nat 24                     -- input port that took its turn last toward each NI's local port (R236)
  draining : Vector Nat 24                     -- units that producers have still to run into discard (R243)
  answers  : Nat                               -- responses sent so far (model's own: their order, R236)
  fates    : List Fate                         -- what befalls the next packets of the node's own parts (model's own, log 131, DESIGN CHOICE)
  heldAck  : List (Nat × NiId × AckFor)        -- writes whose ACK waits on snoops of the block
  arrived  : Vector (Option (BitVec 6 × Response)) 24  -- the response that each NI delivered last (model's own, log 83, DESIGN CHOICE)
  flushing : Vector (BitVec 16) 24             -- tenants whose traffic the NI is flushing
  windowsOk : Bool                             -- no parity error in route tables or window copies
  deriving DecidableEq, Repr

/-- A bank's state (PBSTAT). -/
inductive BankState | active | retention | waking | offline
  deriving DecidableEq, Repr

/-- A unit that a bank port has touched: the cycle, the unit, whether it was written, and what it held before (R250). -/
structure Touch where
  cycle : Nat
  unit  : Nat
  write : Bool
  old   : BitVec 72 × Bool
  deriving DecidableEq, Repr

/-- A bank port: the CK_N cycle from which it is free, and what its last packet touched (R246, R250). -/
structure BankPort where
  free : Nat
  last : List Touch
  deriving DecidableEq, Repr

/-- One Pool or Eddy bank (Table PL-2). Port A is a Pool bank's one port (R246, R250). -/
structure Bank where
  state   : BankState
  rdu     : Word
  wru     : Word
  rmw     : Word
  busy    : Word
  cor     : Word
  unc     : Word
  uadr    : BitVec 16
  uvalid  : Bool
  uscrub  : Bool
  scrub   : BitVec 16
  passes  : BitVec 20
  frc     : Word
  wakes   : BitVec 18
  waited  : BitVec 18
  col     : Word
  scrubAt : Nat                -- when the next scrub read falls due
  downAt  : Nat                -- when the bank last left service (R274)
  wakeAt  : Nat                -- when its last wake began
  portA   : BankPort
  portB   : BankPort
  deriving DecidableEq, Repr

/-- One Weir class (Table WR-2). -/
structure WeirClass where
  recd   : ClassRecord
  bytes  : Vector (BitVec 22) 4
  next   : Vector Nat 4            -- bytes of units performed past the end of the window under way (R263)
  overs  : Vector (BitVec 14) 4
  out    : BitVec 7
  heldNs : Nat                     -- time for which requests have been held at the cap (WQOUT)
  lf     : BitVec 28
  cmp    : Word
  lmax   : BitVec 24
  lcur   : Nat                     -- largest sample in the window under way
  lnext  : Nat                     -- largest sample completed past its end
  sfb    : Word
  zsh    : Word
  sfServed : Vector Nat 4          -- S(q) since the declaration
  deriving DecidableEq, Repr

/-- The Weir (15). -/
structure Weir where
  classes : Vector WeirClass 16
  labels  : Vector (BitVec 4) 16
  win     : Word
  winAt   : Nat                    -- mono at which the window under way began
  sf      : BitVec 4
  sfPrev  : BitVec 4
  grpSf   : Vector (BitVec 18) 4
  grpLost : Vector (BitVec 18) 4
  lostCur : Vector Nat 4
  fullAt  : Vector (Option Nat) 4  -- cycle since which a class in budget has had its share full, per group (R271)
  told    : Vector (BitVec 16) 4   -- tenants told in this window, per group
  deriving DecidableEq, Repr

/-! ### Meander -/

/-- A region image as far as the fabric uses it (Table MN-1). -/
structure Image where
  source  : BitVec 3
  divM1   : Byte
  parking : Vector (BitVec 2) 40
  inputs  : Vector Byte 40
  outputs : Vector Byte 40
  cells   : Vector (BitVec 21) 384
  deriving DecidableEq, Repr

/-- MNSTAT running states. -/
inductive RegionState | running | parked | error | blank
  deriving DecidableEq, Repr

/-- An item of a dual-clock FIFO, with the first, last and poison bits that such items carry (R14). -/
structure Crossing (α : Type) where
  item   : α
  first  : Bool
  last   : Bool
  poison : Bool
  deriving DecidableEq, Repr

/-- An item that is a whole message of its own. -/
def Crossing.whole {α : Type} (x : α) : Crossing α := { item := x, first := true, last := true, poison := false }

/-- A Meander region (Table MN-7). -/
structure RegionSt where
  owner   : Option Ctx
  state   : RegionState
  image   : Image                       -- image in force
  slots   : BitVec 4                    -- the slots of EB1 that hold a run-time image
  slot    : BitVec 2
  full    : Bool
  ffs     : Vector Bool 384
  outs    : Vector Bool 40              -- port bits as seen at the border
  sync1   : Vector Bool 40              -- the synchronisers of the input port bits: their first flip-flops (R14, R281)
  sync2   : Vector Bool 40              -- and their second
  cfgerr  : Bool
  source  : BitVec 3
  divM1   : Byte
  sw      : Bool
  newSource : BitVec 3
  newDiv  : Byte
  reqSlot : Option (BitVec 2)           -- reconfiguration requested
  paddr   : BitVec 18
  pend    : BitVec 18
  fifo    : List (Crossing (BitVec 18 × BitVec 32))   -- post FIFO: address and word, oldest first
  tapFifo : List (Crossing Bool)
  edges   : Nat                         -- tree edges in the frame period at the border
  tapTaken : Bool                       -- this tree cycle's tap event has been taken
  postTaken : Bool
  rslot   : BitVec 2                    -- MNRCFG[1:0] as written
  fresh   : Bool                        -- loaded at run time, with no tree edge since
  unack   : Nat
  posted  : BitVec 24
  pdrop   : BitVec 12
  taps    : BitVec 24
  tlost   : BitVec 12
  rcnt    : BitVec 18
  rfail   : BitVec 18
  deriving DecidableEq, Repr

/-- The fabric (16). -/
structure Meander where
  regions : Vector RegionSt 16
  tapRegion : Vector (BitVec 4) 16
  tapValid : BitVec 16
  cfgDone : Bool
  queue   : List Region                 -- requests, in order
  engine  : Option (Region × BitVec 2)  -- reconfiguration under way
  refuse  : Option (Ctx × Region × BitVec 2 × Bool × Nat)
  samples : Vector (BitVec 40) 12       -- each channel's bits of the last lane frame, first sample lowest
  frameAt : Nat                         -- beginning of the frame period at the border
  frameSi : Option (BitVec 64)          -- its first sample
  deriving DecidableEq, Repr

/-! ### Ring link, ring time and Millrace -/

/-- Port states (R290). -/
inductive PortState | off | training | up | down
  deriving DecidableEq, Repr

/-- A port and its egress queues (R290 to R300, Table LN-7). -/
structure PortSt where
  state    : PortState
  amp24    : Bool
  master   : Bool
  relaying : Bool
  upc      : Word
  downc    : Word
  rxf      : Word
  rxe      : Word
  txf      : Word
  rly      : Word
  dup      : Word
  own      : Word
  qdrop    : Word
  untag    : Word
  supv     : Word
  last     : BitVec 20
  resmx    : BitVec 24
  early    : Word
  qEvent   : List Frame
  qRelay   : List Frame
  qOwn     : List (Nat × Frame)         -- with the instant it was queued
  trainAt  : Nat
  losses   : List Nat                   -- losses at 1.0 Vpp (R350)
  only24   : Bool
  freeAt   : Nat                        -- no restriction before this instant
  unread   : Word                       -- frames the main die could not take (R299)
  deriving DecidableEq, Repr

/-- MAC address forms (R293). -/
inductive AddrForm | s | a | b | c
  deriving DecidableEq, Repr

/-- The ring engines (17). -/
structure Ring where
  portA   : PortSt
  portB   : PortSt
  form    : AddrForm
  tag     : BitVec 16
  seq     : BitVec 16
  known   : List (BitVec 48 × BitVec 16 × Nat)   -- duplicate table: source, sequence, instant; oldest first
  sentOwn : List (BitVec 48 × BitVec 16 × Nat)   -- own pairs sent
  nodes   : List (BitVec 48 × Port × Nat)        -- node table
  relayAt : Nat                                  -- +150 ms after power-on
  supvAt  : Nat
  wire    : List (Port × Frame)                  -- model's own: frames that left, oldest first (log 4, DESIGN CHOICE)
  resid   : List (Port × BitVec 96 × Nat × Nat)  -- Syncs relayed: ingress, source and id, residence, instant
  deriving DecidableEq, Repr

/-- PTP state (R302 to R308, Table LN-8). -/
inductive LockState | unlocked | acquiring | locked
  deriving DecidableEq, Repr

structure Ptp where
  state    : LockState
  keeper   : Option AnnounceMsg          -- the clock selected
  timePort : Option Port
  delayOk  : Bool
  ofs      : Int
  mpd      : Nat
  delays   : List Nat                    -- exchanges on the time port, newest first, up to 8
  syncs    : Word
  dreqs    : Word
  locks    : BitVec 18
  losses   : BitVec 18
  switches : Word
  utc      : BitVec 16
  utcOk    : Bool
  orph     : Word
  good     : Nat                         -- consecutive Syncs within 200 ns
  bad      : Nat                         -- consecutive Syncs beyond 800 ns
  lastSyncA : Option Nat
  lastSyncB : Option Nat
  lastAnn  : Option Nat
  dreqAt   : Nat
  burst    : Nat                         -- Delay_Req left of the four after a change
  asked    : Nat                         -- Delay_Req whose response has not come
  deriving DecidableEq, Repr

/-- A ring-map entry (Table MR-10), with the pulse count and run nonce the engines keep. -/
structure RingMap where
  heard   : Bool
  lost    : Bool
  nbrA    : Bool
  nbrB    : Bool
  goCause : BitVec 3
  twin    : Bool
  verdict : BitVec 2
  hale    : Bool
  vigil   : Bool
  lostCnt : Byte
  serial  : BitVec 64
  lastMs  : BitVec 20
  losses  : BitVec 16
  count   : BitVec 32
  nonce   : BitVec 64
  present : Bool                 -- heard since the node's start (R26)
  early   : Bool                 -- going before the first house verdict: presence starts afresh from then (R373)
  basis   : BitVec 2             -- basis of the loss declared last (R316); one by GOING ends with a new run only (Edges of 18)
  at_     : Nat                  -- instant of the last PULSE
  lossAt  : Nat                  -- instant of the last LOSS sent for it
  ringUs  : BitVec 64
  deriving DecidableEq, Repr

/-- A census query whose answer waits (R318, R319). -/
structure CensusDue where
  number : BitVec 16
  tag    : BitVec 16
  cert   : Bool
  key    : List Byte
  table  : List Byte         -- the neighbour table
  due    : Nat
  deriving DecidableEq, Repr

/-- The Millrace engines (18). -/
structure Millrace where
  map      : Vector RingMap 64
  buddies  : List (BitVec 6)
  census   : Option CensusDue
  answered : Bool                  -- a census answer has been sent in this run
  twins    : List (BitVec 64)      -- serials answered by a TWIN in this run
  pulses   : BitVec 32
  pulseAt  : Nat
  trace    : Option (List Byte)    -- last TIME-AUX body
  rollAt   : Option Nat            -- instant of the last valid ROLL entry
  speed    : BitVec 32
  tachless : Bool
  recorded : Option (BitVec 6)     -- index recorded at the previous start (R31)
  relocated : Bool
  keeperAt : Nat                   -- instant of the last frame from the keeper
  bad      : Byte                  -- RMBAD
  bxf      : BitVec 4              -- RMBXF
  self_    : BitVec 4              -- RMSELF
  deriving DecidableEq, Repr

/-! ### Gauge, faults and findings -/

/-- One cell's sentinel detector (R347, R348). -/
structure Sentinel where
  e      : Rat                  -- E in mg squared
  est    : BitVec 9             -- estimate, 2 mg units
  cross  : BitVec 18
  deriving DecidableEq, Repr

/-- One channel's range loop (R349). -/
structure RangeLoop where
  peak   : Byte
  quiet  : Nat                  -- 10 ms intervals below 10 g
  sels   : BitVec 19
  due    : Option Bool          -- a selection that waits for the window's end
  deriving DecidableEq, Repr

/-- The Gauge (19). -/
structure Gauge where
  step     : Nat
  moving   : Option Nat          -- target of the change under way
  ceiling  : Nat
  demand   : Nat
  hot      : Option Nat          -- last lowering of the ceiling while at or above 115 C
  coolFrom : Option Nat          -- readings below 112 C since
  raisedAt : Nat
  die      : BitVec 16
  dieMax   : BitVec 16
  bwt      : BitVec 16
  episodes : BitVec 18
  seconds  : BitVec 18
  throttleMs : Nat
  steps    : Word
  busy     : BitVec 10
  estAt    : Nat                 -- start of the estimate's interval under way (R348)
  highRun  : Nat
  lowRun   : Nat
  changedAt : Nat
  pll      : BitVec 5
  rails    : BitVec 5
  floors   : Vector (BitVec 4) 16
  outOf    : BitVec 16           -- floors counted out of force in this episode
  outWin   : BitVec 16           -- floors counted out of force in this window
  sfl      : Vector (Vector (BitVec 9) 4) 16
  cells    : Vector Sentinel 4
  last     : Option (CellId × BitVec 20)
  loops    : Vector RangeLoop 12
  confDvfs : BitVec 9
  confSent : BitVec 9
  confPin  : BitVec 9
  watching : Bool                -- the supervisor watches the PLLs and rails (R343)
  standbyB : Bool                -- the standby CK_A PLL is PLL 2, and PLL 1 supplies CK_A (log 13, DESIGN CHOICE)
  deriving DecidableEq, Repr

/-- An entry of the fault stack (FLSTK). -/
structure FaultInHand where
  code      : Byte
  cls       : Nat
  ctx       : Ctx
  preempted : Bool
  deriving DecidableEq, Repr

/-- The fault ledger's on-chip part (R352 to R363). -/
structure Faults where
  stack   : List FaultInHand             -- in hand first
  waiting : List FaultEntry              -- unpersisted, oldest first
  counts  : Vector (BitVec 9) 4
  lostC1  : BitVec 12
  lostHi  : BitVec 12
  escal   : BitVec 12
  last    : List FaultEntry              -- the last four, newest first
  dropped : Vector (Vector (BitVec 5) 7) 16
  counted : List (Byte × Byte × Nat)     -- counted kinds of the interval: code, object, events
  interval : Nat                         -- instant at which the interval began
  upsets   : List (Nat × Upset)          -- the parity errors still to be met, with their instants (model's own, log 155)
  deriving DecidableEq, Repr

/-- Verdicts (Table SC-4, MR-5). -/
inductive Verdict | none | clear | watch | alarm
  deriving DecidableEq, Repr

/-- One tenant's findings. -/
structure TenantFind where
  seq      : BitVec 64
  verdict  : Verdict
  flags    : BitVec 32          -- events since the last finding (Table MR-7)
  proof    : List Byte          -- the PROOF entry of a window that it asked for, which its next finding carries (R110)
  taken    : BitVec 16
  refused  : BitVec 16
  deriving DecidableEq, Repr

/-- Findings of the node (18). -/
structure Findings where
  tenants : Vector TenantFind 16
  waiting : List (Byte × List Byte)      -- system findings that wait for the first house verdict
  verdictAt : Option Nat                 -- first house verdict
  report  : List (List Byte)             -- entries gathered for the start report F0h
  early   : List Finding                 -- findings that wait for the first house verdict (R52)
  behind  : List Finding                 -- live findings that wait behind their tenant's unreplayed ones (R113)
  shorts  : List (Ctx × Group × Nat)     -- shortfall windows that a finding has yet to carry: their beginning (R273)
  deriving DecidableEq, Repr

/-- Reasons to stop. The model never stops with a fault: the spec's own faults are effects on the state. -/
inductive Fault
  /-- Raised by no meaning, and safe: the type needs a member. -/
  | unraised
  deriving DecidableEq, Repr

/-- Refusals. -/
inductive Refusal
  /-- A command that has no meaning yet; raised by exec's arm alone. Safe. -/
  | notModelled (mnemonic : String)
  deriving DecidableEq, Repr

/-- The state of the node. `pending` is the queue of waiting commands, oldest first; `free` counts the free values
taken (model's own, log 3, DESIGN CHOICE). -/
structure State where
  pending : List Instr
  free    : Nat
  time    : Time
  power   : Power
  code    : Code
  lock    : Lock
  ks      : Keepsake
  modes   : Modes
  ct      : Catchment
  braid   : Braid
  sluice  : Sluice
  ctxs    : Vector Context 16
  units   : Vector HUnit 4
  net     : Net
  banks   : Vector Bank 20
  pool    : Mem Word             -- by physical word address
  eddy    : Mem Word
  poison  : List Nat             -- units with an uncorrectable error, Eddy units from 1 048 576 on
  weir    : Weir
  mea     : Meander
  ring    : Ring
  ptp     : Ptp
  mill    : Millrace
  gauge   : Gauge
  faults  : Faults
  find    : Findings
  deriving DecidableEq, Repr

/-! ### The state after reset: a fresh node, unenrolled, without supply, every register at its value at start (log 1, 2) -/

def CodeOutcome.fresh : CodeOutcome :=
  { cf := .openCircuit, cr := .openCircuit, cz := .openCircuit, s := none, p := 0, z := 0, fault := none }

def Power.fresh : Power :=
  { vs := .absent, powered := false, phase := .off, filter := none, below := none, held := [], decidedAt := 0, stopCause := .powerOn,
    stopReason := 0, c4InStop := false, served := 0, startedAt := 0, runAt := 0, token := false, hale := false,
    storeFull := false, coolSince := none,
    retained := { cause := .powerOn, count := 0, restarts := [], s := none, p := 0, z := 0, seq := 0 } }

def Lock.fresh : Lock :=
  { banks := [], charterCtr := 0, patchCtr := 0, nonce := 0, keys := Vector.replicate 16 0, charter := none,
    charterEpoch := 0, charterDig := 0, charterB := false, patchEpoch := 0, patchB := false, patchOn := false,
    patchNone := false, house := true, enrolFused := false, enrolB := false, restartLoop := false, charterLost := false, idle := 0,
    recipeB := 0, recipeIn := 0, versions := Vector.replicate 16 0, refused := none, inStop := [], staged := 0, staging := [] }

/-- A record of a kind whose pages are erased. -/
def TwoCopy.erased {α : Type} (k : PageKind) : TwoCopy α := { kind := k, copy0 := none, copy1 := none }

def Slot.empty : Slot := { content := [], closing := .erased .closing }

def SlotPair.empty : SlotPair := { a := .empty, b := .empty }

def Keepsake.fresh : Keepsake :=
  { enrol := .empty, patch := .empty, charter := .empty, recipe := Vector.replicate 16 .empty, area := [],
    transfer := none, erasing := false, eraseFrom := 0, ledger := [], skipped := 0,
    wasFull := false, fullTold := false, replayWait := false, faultPages := [], nextEntry := 1, persisted := 0,
    socket := .erased .socket, stop := .erased .stop, manufacture := .erased .manufacture, eraseSector := [],
    reserve := #v[8192, 256, 128], next := #v[0, 0, 0], wrote := none, toReport := [] }

def Modes.fresh : Modes :=
  { req := Vector.replicate 16 0, prfref := 0, hw := 0, act := 0, keeperLost := false, conf := 0,
    window := none, dueAt := 0, usedLog := [], log := Vector.replicate 4 { act := 0, cause := 0, ms := 0 },
    parked := false, follow := 0, parkedAt := 0, replay := false, replayAt := 0, divert := false, vigilLate := false }

/-- A channel at start. CTTEMP before the run's first slow word is zero by the model's choice (log 142, DESIGN CHOICE). -/
def Channel.fresh : Channel :=
  { claims := Vector.replicate 16 0, rng := false, src := 0, pend := false, prng := false, settle := 0,
    loopSel := false, pinconf := false, clip := 0, clpix := 0, rchg := 0, temp := 0, clipNow := false, stact := false,
    stres := 0, stix := 0, rconf := 0, calFail := false, calNone := false }

def Coeff.zero : Coeff :=
  { k16 := 0, ofs16 := 0, k64 := 0, ofs64 := 0, tck := 0, tco := 0, tref := 0, stexp16 := 0, stexp64 := 0,
    calsrc := 0, calix := 0, eq := Vector.replicate 16 0, cxa := 0, cxb := 0 }

def LaneState.fresh : LaneState := { up := true, bad := 0, retrains := 0, run := 0, lastTry := 0, counter := 0, si := 0, jump := none }

/-- The Catchment at start. CTDIE before the run's first slow word is zero by the model's choice (log 142, DESIGN CHOICE). -/
def Catchment.fresh : Catchment :=
  { chans := Vector.replicate 12 .fresh, lanes := Vector.replicate 3 .fresh,
    coeffs := Vector.replicate 12 .zero, unlocked := true, trim := 0, changes := 0, step := 0, die := 0,
    calDone := false, stInvalid := false, axis := none, axisAt := 0 }

def RingPlane.fresh : RingPlane := { si := 0, sijump := false, clip := false, settle := false, lane := false }

def Inlet.fresh : Inlet :=
  { src := 0, en := false, lenM1 := 0, base := 0, fill := 0, filled := 0, aligned := false, cur := .fresh, hold := 0,
    holdSome := false, unread := false, wr := 0, rel := 0, count := 0, cfgerr := false,
    planes := Vector.replicate 256 .fresh, done := 0, lost := 0, resumed := 0, newer := false }

def Outlet.fresh (qc : BitVec 4) : Outlet :=
  { en := false, qc := qc, err := false, opened := none, saved := none, ready := [], inOp := [], addr := 0, end_ := 0, sent := 0,
    dropped := 0 }

/-- Strip k at start: owned, or a spare (BRSTAT "by charter"). -/
def StripState.fresh (k : Strip) (owner : Option Ctx) (qc : BitVec 4) : StripState :=
  { owner := owner, spare := owner.isNone, offline := false, phys := k, nsmode := 0, ewwrap := false, share := false,
    result := false, steps := 0, stli := 0, stlo := 0, abnd := 0, steal := 0, perr := 0, inlet := .fresh,
    outlet := .fresh qc }

def Braid.fresh : Braid :=
  { strips := Vector.ofFn (fun k => .fresh k (some 0) 1), planes := [], carry := [], inact := [], prov := [],
    provC := [], provA := [], spareReads := [] }

def Sluice.fresh : Sluice :=
  { patchRam := Vector.replicate 256 0, map := [], openRegion := [], base := Vector.replicate 16 0,
    len := Vector.replicate 16 0, loaded := Vector.replicate 16 0, refusedBy := 0, refuse := none, perr := 0, unc := 0,
    slent := 0, slstk := 0, slrun := 0 }

def Arch.fresh : Arch :=
  { ds := [], rs := [], bk := 0, ops := Vector.replicate 8 0, src := 0, dst := 0, cnt := 0, crcp := 0, crcw := 0,
    crcRefl := false, crca := 0, scmask := 0, lc := Vector.replicate 3 0, ls := Vector.replicate 3 0,
    le := Vector.replicate 3 0, levels := 0, rswrap := false, rconv := false, sat := false, xp := 0, yp := 0,
    xstep := 0, ystep := 0, rsh := 0, wsh := 0, out18 := false, conj := false, neg := false, alt := false,
    ova := false, rov := false, acr := 0, aci := 0, rbx := 0 }

def Window.none : Window :=
  { base := 0, len := 0, valid := false, writable := false, eddy := false, shared := false, phys := 0 }

def Capture.fresh : Capture :=
  { burst := false, arms := false, capref := false, endr := 0, len := 0, fromSi := 0, counted := 0 }

def Context.fresh : Context :=
  { state := .idle, unit := 0, pc := 0, arch := .fresh, xram := [], yram := [], ben := 0, bellv := 0, bepc := 0,
    bcause := 0, bslot := 0, bdata := 0, inBell := false, loopfz := false, lctl := none, lastEv := 0, waiting := none,
    near := 0, time := 0, qwgt := 0, wins := Vector.replicate 4 .none, mstart := 0, pc0 := 0, cap := .fresh,
    branch := none, shadow := none, spec := none, sop := none, rerun := none, queued := none, results := [],
    result := false, pend := [], mailbox := false, credit := 0, expired := false, sliceAt := 0, ctsixh := 0,
    ptsecl := 0, ptsech := 0, bar := false, sync := [] }

def HUnit.fresh : HUnit :=
  { ctx := none, swapPend := false, offline := false, buffer := [], icache := [], spec := 0, miss := 0, roll := 0,
    held := 0, swaps := 0, ovr := 0, bells := 0, icm := 0, abnd := 0, fills := [], ifill := none,
    seq := { upc := 0, stack := [], mci := 0, mcil := 0, mco := 0 } }

def Route.none : Route := { hops := 0, valid := false, tmo := 0, snoop := false }

def Router.fresh : Router := { cor := 0, unc := 0, hdrop := 0, mdrop := 0, units := 0, blk := 0 }

def Net.fresh : Net :=
  { routes := Vector.replicate 24 (Vector.replicate 32 .none), tags := [], routers := Vector.replicate 16 .fresh,
    counts := Vector.replicate 24 { tmo := 0, near := 0, late := 0, flush := 0 }, snoops := [], snooping := [],
    waits := [], turn := Vector.replicate 24 0, draining := Vector.replicate 24 0, answers := 0, fates := [], heldAck := [], arrived := Vector.replicate 24 none, flushing := Vector.replicate 24 0, windowsOk := true }

def Bank.fresh : Bank :=
  { state := .active, rdu := 0, wru := 0, rmw := 0, busy := 0, cor := 0, unc := 0, uadr := 0, uvalid := false,
    uscrub := false, scrub := 0, passes := 0, frc := 0, wakes := 0, waited := 0, col := 0, scrubAt := 0, downAt := 0, wakeAt := 0,
    portA := { free := 0, last := [] }, portB := { free := 0, last := [] } }

def ClassRecord.unused : ClassRecord :=
  { owner := .none, b := 0, cap := 0, target := 0, budget := Vector.replicate 4 0, share := Vector.replicate 4 0 }

def WeirClass.fresh (r : ClassRecord) : WeirClass :=
  { recd := r, bytes := Vector.replicate 4 0, next := Vector.replicate 4 0, overs := Vector.replicate 4 0, out := 0,
    heldNs := 0, lf := 0, cmp := 0, lmax := 0, lcur := 0, lnext := 0, sfb := 0, zsh := 0,
    sfServed := Vector.replicate 4 0 }

/-- QC 1 of house mode (R261). -/
def ClassRecord.house : ClassRecord :=
  { owner := some 0, b := 4, cap := 64, target := 2048, budget := Vector.replicate 4 1887436,
    share := Vector.replicate 4 28 }

/-- The class records in force: the charter's, or those of house mode (R261, R270). -/
def classRecords : Option Charter → Vector ClassRecord 16
  | some c => c.classes
  | none => (Vector.replicate 16 ClassRecord.unused).set 1 ClassRecord.house

def Weir.fresh (recs : Vector ClassRecord 16) (labels : Vector (BitVec 4) 16) (now : Nat) : Weir :=
  { classes := recs.map WeirClass.fresh, labels := labels, win := 0, winAt := now, sf := 0, sfPrev := 0,
    grpSf := Vector.replicate 4 0, grpLost := Vector.replicate 4 0, lostCur := Vector.replicate 4 0,
    fullAt := Vector.replicate 4 none, told := Vector.replicate 4 0 }

def Image.blank : Image :=
  { source := 0, divM1 := 0, parking := Vector.replicate 40 0, inputs := Vector.replicate 40 0,
    outputs := Vector.replicate 40 0, cells := Vector.replicate 384 0 }

def RegionSt.blank : RegionSt :=
  { owner := none, state := .blank, image := .blank, slots := 0, slot := 0, full := false,
    ffs := Vector.replicate 384 false, outs := Vector.replicate 40 false, sync1 := Vector.replicate 40 false,
    sync2 := Vector.replicate 40 false, cfgerr := false, source := 0, divM1 := 0,
    sw := false, newSource := 0, newDiv := 0, reqSlot := none, paddr := 0, pend := 0, fifo := [], tapFifo := [], edges := 0,
    tapTaken := true, postTaken := true, rslot := 0, fresh := false,
    unack := 0, posted := 0, pdrop := 0, taps := 0, tlost := 0, rcnt := 0, rfail := 0 }

def Meander.fresh : Meander :=
  { regions := Vector.replicate 16 .blank, tapRegion := Vector.replicate 16 0, tapValid := 0, cfgDone := false,
    queue := [], engine := none, refuse := none, samples := Vector.replicate 12 0, frameAt := 0, frameSi := none }

def PortSt.fresh : PortSt :=
  { state := .off, amp24 := false, master := false, relaying := false, upc := 0, downc := 0, rxf := 0, rxe := 0,
    txf := 0, rly := 0, dup := 0, own := 0, qdrop := 0, untag := 0, supv := 0, last := 0, resmx := 0,
    early := 0, qEvent := [], qRelay := [], qOwn := [], trainAt := 0, losses := [], only24 := false, freeAt := 0,
    unread := 0 }

def Ring.fresh : Ring :=
  { portA := .fresh, portB := .fresh, form := .s, tag := 0, seq := 0, known := [], sentOwn := [], nodes := [],
    relayAt := 0, supvAt := 0, wire := [], resid := [] }

def Ptp.fresh : Ptp :=
  { state := .unlocked, keeper := none, timePort := none, delayOk := false, ofs := 0, mpd := 0, delays := [],
    syncs := 0, dreqs := 0, locks := 0, losses := 0, switches := 0, utc := 0, utcOk := false, orph := 0, good := 0,
    bad := 0, lastSyncA := none, lastSyncB := none, lastAnn := none, dreqAt := 0, burst := 0, asked := 0 }

def RingMap.fresh : RingMap :=
  { heard := false, lost := false, nbrA := false, nbrB := false, goCause := 0, twin := false, verdict := 0,
    hale := false, vigil := false, lostCnt := 0, serial := 0, lastMs := 0, losses := 0, count := 0, nonce := 0,
    present := false, early := false, basis := 0, at_ := 0, lossAt := 0, ringUs := 0 }

def Millrace.fresh : Millrace :=
  { map := Vector.replicate 64 .fresh, buddies := [], census := none, answered := false, twins := [], pulses := 0,
    pulseAt := 0, trace := none, rollAt := none, speed := 0, tachless := true, recorded := none, relocated := false,
    keeperAt := 0, bad := 0, bxf := 0, self_ := 0 }

def Gauge.fresh : Gauge :=
  { step := 10, moving := none, ceiling := 14, demand := 10, hot := none, coolFrom := none, raisedAt := 0, die := 0,
    dieMax := 0, bwt := 0, episodes := 0, seconds := 0, throttleMs := 0, steps := 0, busy := 0, estAt := 0, highRun := 0,
    lowRun := 0, changedAt := 0, pll := 0x1f, rails := 0x1f, floors := Vector.replicate 16 0, outOf := 0, outWin := 0,
    sfl := Vector.replicate 16 (Vector.replicate 4 0),
    cells := Vector.replicate 4 { e := 64, est := 8, cross := 0 }, last := none,
    loops := Vector.replicate 12 { peak := 0, quiet := 0, sels := 0, due := none }, confDvfs := 0, confSent := 0,
    confPin := 0, watching := false, standbyB := true }

def Faults.fresh : Faults :=
  { stack := [], waiting := [], counts := Vector.replicate 4 0, lostC1 := 0, lostHi := 0, escal := 0,
    last := [], dropped := Vector.replicate 16 (Vector.replicate 7 0), counted := [], interval := 0, upsets := [] }

def Findings.fresh : Findings :=
  { tenants := Vector.replicate 16 { seq := 0, verdict := .none, flags := 0, proof := [], taken := 0, refused := 0 },
    waiting := [], verdictAt := none, report := [], early := [], behind := [], shorts := [] }

/-- The node right after reset: fresh from manufacture and unenrolled, with no supply. Log 1 and log 2 (both DESIGN CHOICE) name the
values the spec does not give. -/
def State.reset : State :=
  { pending := [], free := 0, time := { mono := 0, offset := 0, si := 0, siFrac := 0, edge := 0, stretch := 0, step := none }, power := .fresh,
    code := { latched := .fresh, latchAt := 0, drift := false, agree := 0, lastDiff := none }, lock := .fresh,
    ks := .fresh, modes := .fresh, ct := .fresh, braid := .fresh, sluice := .fresh,
    ctxs := Vector.replicate 16 .fresh, units := Vector.replicate 4 .fresh, net := .fresh,
    banks := Vector.replicate 20 .fresh, pool := [], eddy := [], poison := [],
    weir := .fresh (classRecords none) ((Vector.replicate 16 0).set 0 1) 0, mea := .fresh, ring := .fresh, ptp := .fresh, mill := .fresh,
    gauge := .fresh, faults := .fresh, find := .fresh }

end Sys2Proof.Machine
end

