-- ==== Sys2Proof/Machine/Keepsake.lean ====
section
/-! DEFINITION. Keepsake (R60 to R63, R83, R377, Table SS-8): its layout in pages, the copy of a record that counts, the order in
which a record's copies are programmed, the pages of a staging slot, and the erased page pairs of the three ledger regions. -/

namespace Sys2Proof.Machine

/-! ### Layout (Table SS-8, Table LK-4): pages of 256 bytes, sectors of 16 pages -/

/-- The first page of a region that is written in page pairs. The reserved region, from page 30 688 on, is never written. -/
def ksFirst : KsRegion → Nat
  | .findingLedger => 13536
  | .faultLedger => 29920
  | .records => 30432

/-- The page pairs of a region. -/
def ksPairs : KsRegion → Nat
  | .findingLedger => 8192
  | .faultLedger => 256
  | .records => 128

def ksIndex : KsRegion → Fin 3
  | .findingLedger => 0
  | .faultLedger => 1
  | .records => 2

/-- A sector holds eight page pairs (R62). -/
def sectorPairs : Nat := 8

/-- The first page of copy 0 of page pair `n` of a region; copy 1 follows it. -/
def pairPage (r : KsRegion) (n : Nat) : Nat := ksFirst r + 2 * (n % ksPairs r)

/-- Pages of a slot, its closing page once among them (Table LK-4). RESTART has none. -/
def Kind.pages : Kind → Nat
  | .enrol => 8
  | .patch => 64
  | .charter => 64
  | .recipe => 384
  | .restart => 0

/-- The first page of a staging slot: whole sectors that hold its pages and the second copy of its closing page. -/
def slotFirst (k : Kind) (t : Ctx) (slotB : Bool) : Nat :=
  match k with
  | .enrol => if slotB then 16 else 0
  | .patch => if slotB then 112 else 32
  | .charter => if slotB then 272 else 192
  | .recipe => 352 + 800 * t.val + if slotB then 400 else 0
  | .restart => 0

/-- Copy 0 of a slot's closing page; copy 1 follows it. -/
def closingPage (k : Kind) (t : Ctx) (slotB : Bool) : Nat := slotFirst k t slotB + (k.pages - 1)

/-! ### Two-copy pages (R60, R377) -/

/-- A page is valid when its CRC-32 matches and its kind is the one expected. -/
def Page.valid {α : Type} (p : Page α) (k : PageKind) : Bool := p.crcOk && decide (p.kind = k)

/-- A copy that is valid. -/
def validCopy {α : Type} (k : PageKind) (p : Option (Page α)) : Option (Page α) := p.filter (fun x => x.valid k)

/-- The copy that counts: the higher sequence number among the valid ones, and copy 0 on equal numbers. -/
def TwoCopy.counted {α : Type} (c : TwoCopy α) : Option (BitVec 32 × α) :=
  match validCopy c.kind c.copy0, validCopy c.kind c.copy1 with
  | some x, some y => if x.seq < y.seq then some (y.seq, y.content) else some (x.seq, x.content)
  | some x, none => some (x.seq, x.content)
  | none, some y => some (y.seq, y.content)
  | none, none => none

/-- Program copy 0, read it back, and only then program copy 1. -/
def TwoCopy.program {α : Type} (c : TwoCopy α) (p : Page α) : TwoCopy α :=
  let c := { c with copy0 := some p }
  if (validCopy c.kind c.copy0).isSome then { c with copy1 := some p } else c

/-- Rewrite a record of `length` bytes: its sequence number is one more than the copy's that counted, or 1. -/
def TwoCopy.write {α : Type} (c : TwoCopy α) (length : Nat) (v : α) : TwoCopy α :=
  let n : BitVec 32 := match c.counted with
    | some x => x.1 + 1
    | none => 1
  c.program { seq := n, kind := c.kind, length := length, content := v, crcOk := true }

/-! ### Staging slots (R61, R83) -/

/-- Bytes in at most `n` single pages of at most 244 bytes, each written once. -/
def pagesOf : Nat → List Byte → List (Page (List Byte))
  | 0, _ => []
  | n + 1, b =>
    if b.isEmpty then []
    else { seq := 1, kind := .content, length := (b.take 244).length, content := b.take 244, crcOk := true } :: pagesOf n (b.drop 244)

/-- The bundle that the content pages spell. -/
def Slot.bundle (x : Slot) : List Byte := x.content.flatMap (·.content)

/-- Every content page passes its check. -/
def Slot.contentOk (x : Slot) : Bool := x.content.all (fun p => p.valid .content)

/-- A slot of kind `k` with its content pages and then both copies of its closing page written. -/
def Slot.written (k : Kind) (seq : BitVec 32) (bundle : List Byte) (digest : BitVec 256) : Slot :=
  { content := pagesOf (k.pages - 1) bundle,
    closing := (TwoCopy.erased .closing).program { seq := seq, kind := .closing, length := 32, content := digest, crcOk := true } }

/-! ### Erased reserves (R62) -/

/-- Page pairs of a finding's frame at 244 bytes of content a page (R112). Its frame is taken as the common header of Table MR-1, the
replay field and the finding with its tag, without the Ethernet and HSR headers and the FCS: the model's choice (log 135, DESIGN
CHOICE). -/
def pairsOf (bodyLen : Nat) : Nat := (16 + 8 + bodyLen + 243) / 244

/-- The pairs that unreplayed findings occupy. -/
def Keepsake.livePairs (ks : Keepsake) : Nat := ks.ledger.foldl (fun n f => n + pairsOf f.body.length) 0

/-- The pairs of the finding ledger that are neither erased nor hold an unreplayed finding: the oldest ones. -/
def Keepsake.deadPairs (ks : Keepsake) : Nat := ksPairs .findingLedger - ks.reserve[ksIndex .findingLedger] - ks.livePairs

/-- A sector of the region is to be erased: of the finding ledger, as soon as one holds replayed findings only; of the others, before
the reserve falls below 32 pairs. Log 62, DESIGN CHOICE. -/
def Keepsake.eraseDue (ks : Keepsake) (r : KsRegion) : Bool :=
  match r with
  | .findingLedger => decide (sectorPairs ≤ ks.deadPairs)
  | _ => decide (ks.reserve[ksIndex r] < 32 + sectorPairs)

/-- Begin the background erase that is due. -/
def Keepsake.planErase (ks : Keepsake) (r : KsRegion) : Keepsake :=
  if ks.eraseDue r && !ks.eraseSector.contains r then { ks with eraseSector := ks.eraseSector ++ [r] } else ks

/-- Program `n` page pairs of a region in order, each two-copy page copy 0 first. -/
def Keepsake.takePairs (ks : Keepsake) (r : KsRegion) (n now : Nat) : Keepsake :=
  let at_ := ks.next[ksIndex r]
  { ks with
    reserve := ks.reserve.set (ksIndex r) (ks.reserve[ksIndex r] - n), next := ks.next.set (ksIndex r) ((at_ + n) % ksPairs r),
    wrote := some (now, pairPage r (at_ + n - 1)) }

/-- A sector of the region is erased: its eight pairs are in reserve, and the next erase follows while one is due. The fault ledger's
oldest pages stood in it (R360). -/
def Keepsake.sectorErased (ks : Keepsake) (r : KsRegion) : Keepsake :=
  let n := ks.reserve[ksIndex r] + sectorPairs
  let full := r = .faultLedger ∧ ksPairs r < ks.faultPages.length + n
  let ks := { ks with
    reserve := ks.reserve.set (ksIndex r) n, faultPages := if full then ks.faultPages.drop sectorPairs else ks.faultPages }
  if ks.eraseDue r then ks else { ks with eraseSector := ks.eraseSector.filter (fun x => decide (x ≠ r)) }

/-! ### A write cut off (R60, R68) -/

/-- The last of a list changed. -/
def modLast {α : Type} (f : α → α) : List α → List α
  | [] => []
  | [x] => [f x]
  | x :: xs => x :: modLast f xs

/-- A reset cuts off the program of the page pair under way: in copy 0 the record is absent, in copy 1 copy 0 stands and counts. A
pair takes at most 2 ms (R62). -/
def Keepsake.cutOff (ks : Keepsake) (now : Nat) (copy1 : Bool) : Keepsake :=
  match ks.wrote with
  | some (at_, page) =>
    if copy1 ∨ at_ + 2000000 ≤ now then ks
    else if ksFirst .faultLedger ≤ page ∧ page < ksFirst .records then { ks with faultPages := modLast (fun _ => []) ks.faultPages }
    else if ksFirst .findingLedger ≤ page ∧ page < ksFirst .faultLedger then
      { ks with ledger := modLast (fun f => { f with absent := true }) ks.ledger }
    else ks
  | none => ks

end Sys2Proof.Machine
end

