-- ==== Sys2Proof/Machine/Ops.lean ====
section
/-! DEFINITION. The named operations that every family shares: sparse memory in its canonical form, access to the
parts of the state, time, partitions, own frames (R293, R310, R312), findings (R322 to R325) and the recording of
faults (R359 to R361). -/

namespace Sys2Proof.Machine

/-- The outcome of a meaning. -/
abbrev Out := Host.Outcome State Fault Refusal

/-! ### Sparse memory -/

/-- The value at key `k`, or `d` where nothing is listed. -/
def Mem.get {α : Type} (d : α) : Mem α → Nat → α
  | [], _ => d
  | (k', v) :: m, k => if k' = k then v else Mem.get d m k

/-- Remove the entry at `k`. -/
def Mem.erase {α : Type} : Mem α → Nat → Mem α
  | [], _ => []
  | (k', v) :: m, k => if k' = k then m else (k', v) :: Mem.erase m k

/-- Insert the entry at its place among rising keys, in place of one that stands there. -/
def Mem.insert {α : Type} (k : Nat) (v : α) : Mem α → Mem α
  | [] => [(k, v)]
  | (k', v') :: m =>
    if k < k' then (k, v) :: (k', v') :: m
    else if k = k' then (k, v) :: m
    else (k', v') :: Mem.insert k v m

/-- Write `v` at `k`. Writing what an unlisted key reads as removes the entry, so equal contents are equal data. -/
def Mem.set {α : Type} [DecidableEq α] (d : α) (m : Mem α) (k : Nat) (v : α) : Mem α :=
  if v = d then Mem.erase m k else Mem.insert k v m

/-- Whether every key is above `lo` and the keys rise. -/
def Mem.sortedFrom {α : Type} : Option Nat → Mem α → Bool
  | _, [] => true
  | none, (k, _) :: m => Mem.sortedFrom (some k) m
  | some lo, (k, _) :: m => decide (lo < k) && Mem.sortedFrom (some k) m

/-- The canonical form: rising keys, and no entry that an unlisted key reads as. -/
def Mem.wf {α : Type} [DecidableEq α] (d : α) (m : Mem α) : Bool :=
  Mem.sortedFrom none m && m.all (fun e => decide (e.2 ≠ d))

/-! ### Parts of the state -/

/-- Context `t`. -/
def State.ctx (s : State) (t : Ctx) : Context := s.ctxs[t]
/-- The state with context `t` replaced. -/
def State.setCtx (s : State) (t : Ctx) (c : Context) : State := { s with ctxs := s.ctxs.set t c }
/-- The state with context `t` changed by `f`. -/
def State.modCtx (s : State) (t : Ctx) (f : Context → Context) : State := s.setCtx t (f (s.ctx t))
/-- The state with the checkpointed registers of context `t` changed by `f`. -/
def State.modArch (s : State) (t : Ctx) (f : Arch → Arch) : State :=
  s.modCtx t (fun c => { c with arch := f c.arch })

def State.hunit (s : State) (n : UnitId) : HUnit := s.units[n]
def State.setUnit (s : State) (n : UnitId) (u : HUnit) : State := { s with units := s.units.set n u }
def State.modUnit (s : State) (n : UnitId) (f : HUnit → HUnit) : State := s.setUnit n (f (s.hunit n))

def State.strip (s : State) (k : Strip) : StripState := s.braid.strips[k]
def State.modStrip (s : State) (k : Strip) (f : StripState → StripState) : State :=
  { s with braid := { s.braid with strips := s.braid.strips.set k (f (s.strip k)) } }
def State.modInlet (s : State) (k : Strip) (f : Inlet → Inlet) : State :=
  s.modStrip k (fun x => { x with inlet := f x.inlet })
def State.modOutlet (s : State) (k : Strip) (f : Outlet → Outlet) : State :=
  s.modStrip k (fun x => { x with outlet := f x.outlet })

def State.bank (s : State) (b : BankId) : Bank := s.banks[b]
def State.modBank (s : State) (b : BankId) (f : Bank → Bank) : State := { s with banks := s.banks.set b (f (s.bank b)) }

def State.chan (s : State) (ch : Chan) : Channel := s.ct.chans[ch]
def State.modChan (s : State) (ch : Chan) (f : Channel → Channel) : State :=
  { s with ct := { s.ct with chans := s.ct.chans.set ch (f (s.chan ch)) } }

def State.region (s : State) (r : Region) : RegionSt := s.mea.regions[r]
def State.modRegion (s : State) (r : Region) (f : RegionSt → RegionSt) : State :=
  { s with mea := { s.mea with regions := s.mea.regions.set r (f (s.region r)) } }

def State.port (s : State) : Port → PortSt
  | .a => s.ring.portA
  | .b => s.ring.portB
def State.modPort (s : State) (p : Port) (f : PortSt → PortSt) : State :=
  match p with
  | .a => { s with ring := { s.ring with portA := f s.ring.portA } }
  | .b => { s with ring := { s.ring with portB := f s.ring.portB } }
/-- The other port. -/
def otherPort : Port → Port
  | .a => .b
  | .b => .a

def State.cls (s : State) (q : BitVec 4) : WeirClass := s.weir.classes[q.toFin]
def State.modCls (s : State) (q : BitVec 4) (f : WeirClass → WeirClass) : State :=
  { s with weir := { s.weir with classes := s.weir.classes.set q.toFin (f (s.cls q)) } }

def State.socket (s : State) (b : BitVec 6) : RingMap := s.mill.map[b.toFin]
def State.modSocket (s : State) (b : BitVec 6) (f : RingMap → RingMap) : State :=
  { s with mill := { s.mill with map := s.mill.map.set b.toFin (f (s.socket b)) } }

def State.tfind (s : State) (t : Ctx) : TenantFind := s.find.tenants[t]
def State.modFind (s : State) (t : Ctx) (f : TenantFind → TenantFind) : State :=
  { s with find := { s.find with tenants := s.find.tenants.set t (f (s.tfind t)) } }

def State.modRouter (s : State) (r : RouterId) (f : Router → Router) : State :=
  { s with net := { s.net with routers := s.net.routers.set r (f s.net.routers[r]) } }
def State.modNi (s : State) (n : NiId) (f : NiCount → NiCount) : State :=
  { s with net := { s.net with counts := s.net.counts.set n (f s.net.counts[n]) } }

/-- The next free value's counter, and the state that has taken it (log 3, DESIGN CHOICE). -/
def State.takeFree (s : State) : Nat × State := (s.free, { s with free := s.free + 1 })

/-! ### Time -/

/-- The count on which every delay runs, ns (R308). -/
def State.now (s : State) : Nat := s.time.mono
/-- Ring time in nanoseconds (R308). -/
def State.ringNs (s : State) : Nat := ((s.time.mono : Int) + s.time.offset).toNat
/-- Ring time in microseconds. -/
def State.ringUs (s : State) : Nat := s.ringNs / 1000
/-- Ring-time milliseconds modulo 2^20. -/
def State.ringMs (s : State) : BitVec 20 := BitVec.ofNat 20 (s.ringNs / 1000000)

/-- One millisecond and one second of the nanosecond count. -/
def ms : Nat := 1000000
def sec : Nat := 1000000000

/-- At least `d` has passed since `since` (R6: no event bounded below happens earlier). -/
def State.passed (s : State) (since d : Nat) : Bool := decide (since + d ≤ s.now)

/-! ### Tenants, permits and partitions -/

/-- PERMIT: SURVEY and PROOF always, bits 1 to 6 the profile (R99). -/
def permitOf (p : BitVec 6) : Byte := 0x81 ||| (p.zeroExtend 8 <<< 1)
def State.permit (s : State) : Byte := permitOf s.code.latched.p
/-- A tenant's grant: bits 6 to 0 of its request AND PERMIT (R99). -/
def State.grant (s : State) (t : Ctx) : Byte := s.modes.req[t] &&& 0x7f &&& s.permit
/-- Mode numbers of Table MD-1. -/
def mSurvey : Nat := 0
def mEnvelope : Nat := 1
def mOrder : Nat := 2
def mCapture : Nat := 3
def mSentinel : Nat := 4
def mHold : Nat := 5
def mVigil : Nat := 6
def mProof : Nat := 7
def State.inAct (s : State) (m : Nat) : Bool := s.modes.act.getLsbD m
def State.granted (s : State) (t : Ctx) (m : Nat) : Bool := (s.grant t).getLsbD m

/-- All contexts, strips, units, channels, in ascending order. -/
def allCtx : List Ctx := List.finRange 16
def allStrips : List Strip := List.finRange 16
def allUnits : List UnitId := List.finRange 4
def allChans : List Chan := List.finRange 12
def allGroups : List Group := List.finRange 4

/-- The tenants that exist: the charter's, or T0 in house mode (R57, R87). -/
def State.tenantExists (s : State) (t : Ctx) : Bool :=
  match s.lock.charter with
  | some c => c.tenants[t].isSome
  | none => decide (t = 0)

/-- The HALE-driving mask as applied: zero means T0 alone (Table LK-5a, LKTEN). -/
def State.halMask (s : State) : BitVec 16 :=
  match s.lock.charter with
  | some c => if c.halMask = 0 then 1 else c.halMask
  | none => 1

/-- The contexts that take causes: neither idle nor halted (R116). -/
def Context.live (c : Context) : Bool := c.state != .idle && c.state != .halted

/-- The strips of tenant `t`'s partition that are in service, in ascending order (R136). -/
def State.partition (s : State) (t : Ctx) : List Strip :=
  allStrips.filter (fun k => decide ((s.strip k).owner = some t) && !(s.strip k).offline)

/-- The strips whose owner is `t`, offline ones included (Table HR-3). -/
def State.ownsStrip (s : State) (t : Ctx) (k : Strip) : Bool := decide ((s.strip k).owner = some t)

/-- Strip `k`'s neighbour at number `k + d` within the same run of the partition of `t` (R136). A strip that is lost
with no spare leaves the run (Table FL-2). -/
def State.inPart (s : State) (t : Ctx) (k : Nat) : Bool :=
  if h : k < 16 then decide ((s.strip ⟨k, h⟩).owner = some t) && !(s.strip ⟨k, h⟩).offline else false

/-- The first strip of the run that holds strip `k` (R136). -/
def State.runStart (s : State) (t : Ctx) : Nat → Nat
  | 0 => 0
  | k + 1 => if s.inPart t k then s.runStart t k else k + 1

/-- The last strip of the run that holds strip `k`, looking at most `fuel` strips east. -/
def State.runEnd (s : State) (t : Ctx) : (fuel : Nat) → Nat → Nat
  | 0, k => k
  | fuel + 1, k => if s.inPart t (k + 1) then s.runEnd t fuel (k + 1) else k

/-! ### Own frames -/

/-- The node's MAC address in force (R293). -/
def State.address (s : State) : BitVec 48 :=
  let ser := Config.deviceSerial
  match s.ring.form with
  | .s => (0x024657 : BitVec 24) ++ s.ring.tag ++ ((s.code.latched.s.getD 0).zeroExtend 8)
  | .a => (0x024658 : BitVec 24) ++ ser.extractLsb' 0 24
  | .b => (0x06 : BitVec 8) ++ ser.extractLsb' 0 40
  | .c => (0x0a : BitVec 8) ++ ser.extractLsb' 24 40

/-- The node identifies by serial: no index latched, or a TWIN was yielded (R24, R332). -/
def State.bySerial (s : State) : Bool := s.code.latched.s.isNone || s.ring.form != .s

/-- The socket byte of the common header: s, or FFh for a node that identifies by serial (Table MR-1). -/
def State.socketByte (s : State) : Byte :=
  if s.bySerial then 0xff else (s.code.latched.s.getD 0).zeroExtend 8

/-- Group addresses (R311, R298, Table LN-3). -/
def nodeGroup : BitVec 48 := 0x034657000001
def keeperGroup : BitVec 48 := 0x034657000002
def supervisionGroup : BitVec 48 := 0x01154e000100
def ptpGroup : BitVec 48 := 0x011b19000000

/-- EtherTypes (R293, R295, R298). -/
def etMillrace : BitVec 16 := 0x88b5
def etPtp : BitVec 16 := 0x88f7
def etSupervision : BitVec 16 := 0x88fb

/-- The keeper's address: the source of the Announce messages that selected it (R304). -/
def State.keeperAddr (s : State) : Option (BitVec 48) := s.ptp.keeper.map (·.src)

/-- Queue an own frame on both ports with one HSR sequence number; a port that is not Up discards its copy (R297).
Log 98, DESIGN CHOICE. -/
def State.emit (s : State) (dst : BitVec 48) (et : BitVec 16) (payload : List Byte) (event : Bool) : State :=
  let mk (path : BitVec 4) : Frame :=
    { dst := dst, src := s.address, path := path, seq := s.ring.seq, etherType := et, payload := payload,
      invalid := false }
  let put (p : PortSt) (f : Frame) : PortSt :=
    if p.state = .up then
      if event then { p with qEvent := p.qEvent ++ [f] } else { p with qOwn := p.qOwn ++ [(s.now, f)] }
    else p
  { s with ring := { s.ring with
      portA := put s.ring.portA (mk 0), portB := put s.ring.portB (mk 1), seq := s.ring.seq + 1,
      sentOwn := (s.address, s.ring.seq, s.now) :: s.ring.sentOwn } }

/-- Whether the node sends frames of its own: in RUN from the first house verdict (R52, R64, R67). -/
def State.speaks (s : State) : Bool := s.find.verdictAt.isSome && decide (s.power.phase = .run)

/-- An own frame, sent only while the node sends frames of its own (R52). -/
def State.sendOwn (s : State) (dst : BitVec 48) (et : BitVec 16) (payload : List Byte) (event : Bool) : State :=
  if s.speaks then s.emit dst et payload event else s

/-- The bytes of a Millrace message: common header of Table MR-1, then the body. -/
def State.millrace (s : State) (type flags : Byte) (body : List Byte) : List Byte :=
  [0x01, type] ++ bytesBE body.length 2 ++ bytesBE s.ring.tag.toNat 2 ++ [s.socketByte, flags]
    ++ bytesBE Config.deviceSerial.toNat 8 ++ body

/-- Send a Millrace message to `dst`. -/
def State.sendMillrace (s : State) (dst : BitVec 48) (type flags : Byte) (body : List Byte) : State :=
  s.sendOwn dst etMillrace (s.millrace type flags body) false

/-! ### Findings -/

/-- Verdict codes of Tables MR-5 and MR-6. -/
def Verdict.code : Verdict → Byte
  | .none => 0
  | .clear => 1
  | .watch => 2
  | .alarm => 3

/-- Whether tenant `t`'s findings are encrypted (R324). -/
def State.enc (s : State) (t : Ctx) : Bool :=
  match s.lock.charter with
  | some c => c.encMask.getLsbD t
  | none => false

/-- The instant of sample `x`, on `mono`: one sample is 15 625 / 96 ns (R122). -/
def State.siInstant (s : State) (x : Nat) : Int :=
  (s.now : Int) - ((s.time.si.toNat : Int) - (x : Int)) * 15625 / 96

/-- Whether samples `si0` to `si0 + len` overlap a PROOF window of this run (R110). -/
def State.shadowed (s : State) (si0 len : Nat) : Bool :=
  let a := s.siInstant si0
  let b := s.siInstant (si0 + len)
  let hit (o c : Nat) : Bool := decide (a < (c : Int)) && decide ((o : Int) < b)
  (match s.modes.window with
   | some w => s.modes.hw.getLsbD mProof && hit w.openAt (max w.closeAt (s.now + 1))
   | none => false)
  || s.modes.usedLog.any (fun e => hit (e.1 - e.2.1 * ms) e.1)

/-- Divisor 4 is in force: VIGIL is in ACT, and any PROOF window in which it entered has ended (R111, Edges of 06). -/
def State.divided (s : State) : Bool := s.inAct mVigil && !s.modes.vigilLate

/-- The flags that describe the state at formation rather than an event since the last finding (Table MR-7). -/
def State.stateFlags (s : State) (t : Ctx) : BitVec 32 :=
  let f (i : Nat) (b : Bool) : BitVec 32 := if b then 1#32 <<< i else 0
  f 0 (s.ptp.state != .locked)
  ||| f 13 (s.mill.tachless && s.granted t mOrder)
  ||| f 15 s.divided
  ||| f 24 s.lock.house
  ||| f 25 s.bySerial
  ||| f 26 (match s.mill.trace with
            | some b => decide (byteAt b 0 = 2)
            | none => true)

/-- The bits of the gathered flags that a system finding leaves for the next record's finding: PROOF-SHADOWED and
SHORTFALL G0 to G3 (R325). -/
def intervalFlags : BitVec 32 := 0x00000f02

/-- Page pairs of a region are programmed; in RUN the erase that is then due begins in the background (R62). -/
def State.usePairs (s : State) (r : KsRegion) (n : Nat) : State :=
  let ks := s.ks.takePairs r n s.now
  { s with ks := if s.power.phase = .run then ks.planErase r else ks }

/-- A finding is written to the ledger (R112). -/
def State.toLedger (s : State) (f : Finding) : State :=
  let s := { s with ks := { s.ks with ledger := s.ks.ledger ++ [f] } }
  s.usePairs .findingLedger (pairsOf f.body.length)

/-- Send a formed finding live, with a replay field of zero (R323). -/
def State.sendFinding (s : State) (f : Finding) : State :=
  s.sendMillrace keeperGroup 0x02 0x00 (List.replicate 8 0 ++ f.body)

/-- Tenant `t` has findings in the ledger that the node is to replay before its live ones: while a replay runs, and while HOLD is
permitted (R113). -/
def State.mustWait (s : State) (t : Ctx) : Bool :=
  (s.modes.replay || s.permit.getLsbD mHold) && s.ks.ledger.any (fun g => decide (g.tenant = t))

/-- Route a formed finding: to the ledger while findings divert (R112), to the wait for the first house verdict (R52), to the wait
behind its tenant's unreplayed findings (R113), or onto the ring. -/
def State.routeFinding (s : State) (f : Finding) : State :=
  if s.modes.divert then s.toLedger f
  else if s.find.verdictAt.isNone then { s with find := { s.find with early := s.find.early ++ [f] } }
  else if s.mustWait f.tenant then { s with find := { s.find with behind := s.find.behind ++ [f] } }
  else s.sendFinding f

/-- The live findings that need wait no longer go out, in their order (R113). -/
def State.releaseBehind (s : State) : State :=
  let go := s.find.behind.filter (fun f => !s.mustWait f.tenant)
  let s := { s with find := { s.find with behind := s.find.behind.filter (fun f => s.mustWait f.tenant) } }
  go.foldl (fun s f => s.sendFinding f) s

/-- Diversion resumes: the live findings that wait follow the entries not yet sent (R113). -/
def State.divertBehind (s : State) : State :=
  let go := s.find.behind
  go.foldl (fun s f => s.toLedger f) { s with find := { s.find with behind := [] } }

/-- Whether the node forms no finding because the ledger is full: diverting with no free pages beyond the erased
reserve of R62 (R112). -/
def State.ledgerFull (s : State) (bodyLen : Nat) : Bool :=
  s.modes.divert && decide (s.ks.reserve[ksIndex .findingLedger] < 32 + pairsOf (40 + bodyLen + 16))

/-- Whether samples `si0` to `si0 + len` overlap the Weir window that began at `at_` (R273). -/
def State.overlapsWindow (s : State) (si0 len at_ : Nat) : Bool :=
  decide (s.siInstant si0 < (at_ + 163840 : Nat)) && decide ((at_ : Int) ≤ s.siInstant (si0 + len))

/-- The shortfall windows that a finding of tenant `t` with this data interval carries. -/
def State.shortsOf (s : State) (t : Ctx) (si0 len : Nat) : List (Ctx × Group × Nat) :=
  s.find.shorts.filter (fun e => decide (e.1 = t) && s.overlapsWindow si0 len e.2.2)

/-- Their flags: bits 8 to 11 (Table MR-7). -/
def shortFlags (l : List (Ctx × Group × Nat)) : BitVec 32 := l.foldl (fun f e => f ||| (1#32 <<< (8 + e.2.1.val))) 0

/-- The finding has carried them. -/
def State.dropShorts (s : State) (l : List (Ctx × Group × Nat)) : State :=
  { s with find := { s.find with shorts := s.find.shorts.filter (fun e => !l.contains e) } }

/-- The gathered flags that a finding of tenant `t` carries: a system finding has no interval (R325), and SPEED-CHANGE stands only in
findings of tenants whose grant holds ORDER (R114). -/
def State.gathered (s : State) (t : Ctx) (system : Bool) : BitVec 32 :=
  let f := if system then (s.tfind t).flags &&& ~~~intervalFlags else (s.tfind t).flags
  if s.granted t mOrder then f else f &&& ~~~(1#32 <<< 14)

/-- The PROOF entry that a finding of tenant `t` with a body of `n` bytes takes along: a record's finding that has room for it within a
record's largest body (R110, R321). Log 108, DESIGN CHOICE. -/
def State.proofFor (s : State) (t : Ctx) (n : Nat) (system : Bool) : List Byte :=
  let e := (s.tfind t).proof
  if !system && decide (n + e.length ≤ 1420) then e else []

/-- The finding has carried it. -/
def TenantFind.sent (x : TenantFind) (seq : BitVec 64) (system carried : Bool) : TenantFind :=
  { x with seq := seq, flags := if system then x.flags &&& intervalFlags else 0, proof := if carried then [] else x.proof }

/-- Form a finding of tenant `t` (R322 to R325): the next sequence number, the flags, authentication, and its route.
`system` findings keep the interval flags for later. -/
def State.formFinding (s : State) (t : Ctx) (kind verdict : Byte) (si0 len : Nat) (body0 : List Byte)
    (system : Bool) : State :=
  let extra := s.proofFor t body0.length system
  let body := body0 ++ extra
  if s.ledgerFull body.length then
    { s with ks := { s.ks with skipped := s.ks.skipped + 1, wasFull := true, fullTold := false } }
  else
    let ft := s.tfind t
    let seq := ft.seq + 1
    let gathered := s.gathered t system
    let shadow : BitVec 32 := if !system && s.shadowed si0 len then 2 else 0
    let shorts := if system then [] else s.shortsOf t si0 len
    let flags := gathered ||| s.stateFlags t ||| shadow ||| shortFlags shorts
    let enc := s.enc t
    let header : List Byte :=
      [BitVec.ofNat 8 t.val, kind, verdict, if enc then 1 else 0] ++ bytesBE flags.toNat 4
        ++ bytesBE s.lock.nonce.toNat 8 ++ bytesBE seq.toNat 8 ++ bytesBE si0 8 ++ bytesBE len 4
        ++ [s.modes.act, s.grant t] ++ bytesBE body.length 2
    let iv : List Byte := [BitVec.ofNat 8 t.val, 0, 0, 0] ++ bytesBE seq.toNat 8
    let aad := bytesBE Config.deviceSerial.toNat 8 ++ header ++ (if enc then [] else body)
    let sealed := gcmSeal s.lock.keys[t] iv aad (if enc then body else [])
    let f : Finding := { tenant := t, body := header ++ (if enc then sealed.1 else body) ++ sealed.2 }
    let s := s.modFind t (fun x => x.sent seq system (!extra.isEmpty))
    (s.dropShorts shorts).routeFinding f

/-- An entry of a system finding: code, length, value (R325). -/
def sysEntry (code : Nat) (value : List Byte) : List Byte := bytesBE code 2 ++ bytesBE value.length 2 ++ value

/-- The REFUSED entry of an F4h finding (Table FL-5). -/
def Refusal'.entry (x : Refusal') : List Byte := sysEntry 0x0012 ([x.kind, x.tenant, x.code] ++ bytesBE x.digest.toNat 8)

/-- A system finding of T0, kinds F0h to F6h; before the first house verdict it waits (R325), and from a stop's decision
on none is formed (Table SS-5). Log 128, DEDUCED. -/
def State.formSystem (s : State) (kind : Byte) (body : List Byte) : State :=
  if s.power.phase = .stopping then s
  else if s.find.verdictAt.isSome then s.formFinding 0 kind 0 s.time.si.toNat 0 body true
  else { s with find := { s.find with waiting := s.find.waiting ++ [(kind, body)] } }

/-- Set a flag of tenant `t`'s next finding (Table MR-7). -/
def State.flag (s : State) (t : Ctx) (i : Nat) : State :=
  s.modFind t (fun x => { x with flags := x.flags ||| (1#32 <<< i) })

/-- Set a flag of the next finding of every tenant that `who` selects. -/
def State.flagAll (s : State) (who : Ctx → Bool) (i : Nat) : State :=
  (allCtx.filter who).foldl (fun s t => s.flag t i) s

/-! ### Recording faults -/

/-- Fault classes C1 to C4 of Table FL-3. -/
def faultClass (code : Nat) : Nat :=
  if 0x30 ≤ code ∧ code ≤ 0x36 then 2
  else if 0x50 ≤ code ∧ code ≤ 0x53 then 3
  else if 0x60 ≤ code ∧ code ≤ 0x66 then 4
  else 1

/-- The 16 bytes of a fault entry (Table FL-6). -/
def FaultEntry.bytes (e : FaultEntry) : List Byte :=
  bytesBE e.number.toNat 4 ++ bytesBE e.time.toNat 6
    ++ [BitVec.ofNat 8 (e.cls + (if e.unlocked then 8 else 0) + (if e.nested then 16 else 0)
          + (if e.escalated then 32 else 0)),
        e.code,
        BitVec.ofNat 8 ((e.ctx.elim 0 (·.val)) + 16 * (e.unit.elim 0 (·.val)) + (if e.ctx.isSome then 64 else 0)
          + (if e.unit.isSome then 128 else 0)),
        e.object]
    ++ bytesBE e.detail.toNat 2

/-- Remove the first element that `p` selects. -/
def removeFirst {α : Type} (p : α → Bool) : List α → List α
  | [] => []
  | x :: xs => if p x then xs else x :: removeFirst p xs

/-- Place an entry among the waiting ones; none when it is not recorded (R360). -/
def placeEntry (waiting : List FaultEntry) (e : FaultEntry) : Option (List FaultEntry) :=
  if waiting.length < 64 then some (waiting ++ [e])
  else if e.cls ≤ 1 then none
  else
    let lowest := waiting.foldl (fun m x => Nat.min m x.cls) 4
    if lowest < e.cls then some (removeFirst (fun x => decide (x.cls = lowest)) waiting ++ [e]) else none

/-- The entry of a fault with the next entry number (Table FL-6). -/
def State.faultEntry (s : State) (code : Nat) (object : Byte) (detail : Nat) (ctx : Option Ctx)
    (unit : Option UnitId) (escalated : Bool) : FaultEntry :=
  { number := s.ks.nextEntry, time := BitVec.ofNat 48 s.ringUs, cls := faultClass code,
    unlocked := s.ptp.state != .locked, nested := !s.faults.stack.isEmpty, escalated := escalated,
    code := BitVec.ofNat 8 code, ctx := ctx, unit := unit, object := object, detail := BitVec.ofNat 16 detail,
    at_ := s.now }

/-- Record a fault entry (R359, R360) and report it in an F3h finding (R361). -/
def State.recordEntry (s : State) (e : FaultEntry) : State :=
  let cls := e.cls
  match placeEntry s.faults.waiting e with
  | none =>
    if cls = 1 then { s with faults := { s.faults with lostC1 := satInc s.faults.lostC1 } }
    else { s with faults := { s.faults with lostHi := satInc s.faults.lostHi } }
  | some w =>
    let i : Fin 4 := Fin.ofNat 4 (cls - 1)
    let s := { s with
      ks := { s.ks with nextEntry := s.ks.nextEntry + 1 },
      faults := { s.faults with
        waiting := w,
        counts := s.faults.counts.set i (satInc s.faults.counts[i]),
        last := (e :: s.faults.last).take 4 } }
    s.formSystem 0xf3 (sysEntry 0x0001 e.bytes)

/-- Record a fault of the given code, object and detail. -/
def State.recordFault (s : State) (code : Nat) (object : Byte) (detail : Nat) (ctx : Option Ctx)
    (unit : Option UnitId) (escalated : Bool) : State :=
  s.recordEntry (s.faultEntry code object detail ctx unit escalated)

/-- A C1 fault that is recorded at once. -/
def State.c1 (s : State) (code : Nat) (object : Byte) (detail : Nat) (ctx : Option Ctx) : State :=
  s.recordFault code object detail ctx none false

/-- Add one event to a counted C1 kind's interval (R375). -/
def bumpCount (code object : Byte) : List (Byte × Byte × Nat) → List (Byte × Byte × Nat)
  | [] => [(code, object, 1)]
  | (c, o, n) :: rest => if c = code ∧ o = object then (c, o, n + 1) :: rest else (c, o, n) :: bumpCount code object rest

/-- Count an event of a counted C1 kind (R375). -/
def State.countFault (s : State) (code object : Nat) : State :=
  { s with faults := { s.faults with
      counted := bumpCount (BitVec.ofNat 8 code) (BitVec.ofNat 8 object) s.faults.counted } }

end Sys2Proof.Machine
end

