-- ==== Sys2Proof/Machine/Rollback.lean ====
section
/-! DEFINITION. What undoes a speculation (R204, R205): provisional planes and speculative stores are discarded and the checkpoint
comes back. A strand op that leaves its micro-sequencer leaves its counters there (R157). -/

namespace Sys2Proof.Machine

/-- The provisional planes, C and A of the strips of tenant `t` are discarded (R141). -/
def State.dropProv (s : State) (t : Ctx) : State :=
  let mine (k : Nat) : Bool := if h : k < 16 then s.ownsStrip t ⟨k, h⟩ else false
  { s with braid := { s.braid with
      prov := s.braid.prov.filter (fun e => !mine (e.1 / 4096)),
      provC := s.braid.provC.filter (fun e => !mine e.1),
      provA := s.braid.provA.filter (fun e => !mine e.1) } }

/-- The speculative stores of context `t` are discarded (R205, Table PB-7). -/
def State.dropStores (s : State) (t : Ctx) : State :=
  { s with units := s.units.map (fun (u : HUnit) =>
      { u with buffer := u.buffer.filter (fun e => !(decide (e.ctx = t) && e.spec)) }) }

/-- The micro-sequencer as a strand op leaves it. -/
def StrandOp.micro (o : StrandOp) : MicroSeq := { upc := o.upc, stack := o.stack, mci := o.mci, mcil := o.mcil, mco := o.mco }

/-- The micro-sequencer of the context's unit keeps what the op under way has left in it (R157). -/
def State.keepSeq (s : State) (t : Ctx) : State :=
  match (s.ctx t).sop with
  | some o => s.modUnit (s.ctx t).unit (fun u => { u with seq := o.micro })
  | none => s

/-- A strand op of a speculation has met a fault or a cause that the speculation holds (R201). -/
def Context.opFaulted (c : Context) : Bool :=
  match c.sop with
  | some o => o.ended != .running && o.ended != .done
  | none => false

/-- Undo a speculation (R204, R205): the checkpoint, the speculative stores, the provisional planes and every
speculated strand op. A held cause is discarded and counted. -/
def State.rollBack (s : State) (t : Ctx) (sp : Spec) (pc : BitVec 19) : State :=
  let n := (s.ctx t).unit
  let tested := match (s.ctx t).sop with
    | some o => !o.spec
    | none => false
  let held := (s.ctx t).opFaulted
  let s := s.dropStores t
  let s := if tested then s else (s.keepSeq t).dropProv t
  let s := s.modCtx t (fun c =>
    { c with
      arch := sp.check, spec := none, pc := pc, branch := none,
      sop := match c.sop with
        | some o => if o.spec then none else some o
        | none => none,
      queued := match c.queued with
        | some q => if q.spec then none else some q
        | none => none,
      results := c.results.filter (fun r => !r.spec) })
  let s := if held then s.modUnit n (fun u => { u with held := satInc u.held }) else s
  if sp.held.isSome then s.modUnit n (fun u => { u with held := satInc u.held }) else s

/-- An asynchronous cause, a swap or a stop rolls a speculation back to its BRC (R205). -/
def State.rollAsync (s : State) (t : Ctx) : State :=
  match (s.ctx t).spec with
  | none => s
  | some sp => (s.rollBack t sp sp.brc).modUnit (s.ctx t).unit (fun u => { u with roll := satInc u.roll })

end Sys2Proof.Machine
end

