-- ==== Sys2Proof/Machine/Waits.lean ====
section
/-! DEFINITION. Waits and their events (R185, Table HW-5), and asynchronous causes up to the Bell that takes them
(R116, R207, R209). -/

namespace Sys2Proof.Machine

/-- WAIT event bits (Table HW-5). -/
def evInlet : Nat := 0
def evStrand : Nat := 1
def evMailbox : Nat := 2
def evRoll : Nat := 3
def evWake : Nat := 4
def evAct : Nat := 5
def evProof : Nat := 6

/-- Every strand op that the context issued has ended and its result has arrived (R184, WAIT event 1). -/
def Context.strandsDone (c : Context) : Bool := c.sop.isNone && c.queued.isNone && c.results.isEmpty && c.rerun.isNone

/-- The events that hold as levels: event 1 and the mailbox flag, event 2. -/
def Context.levels (c : Context) : BitVec 7 :=
  (if c.strandsDone then 2 else 0) ||| (if c.mailbox then 4 else 0)

/-- The instant of a wait's end lies at or before `ns` of `mono` with ring time at `us` microseconds. An ABS instant is
taken modulo 2^36, and one less than half that range behind is past (log 21, DEDUCED). -/
def deadlinePast (ns us : Nat) : Sum Nat Nat → Bool
  | .inl d => decide (d ≤ ns)
  | .inr d => decide ((us + 2 ^ 36 - d % 2 ^ 36) % 2 ^ 36 < 2 ^ 35)

/-- Whether the wait's timeout has come. -/
def State.waitDue (s : State) (w : Waiting) : Bool :=
  match w.deadline with
  | some d => deadlinePast s.now s.ringUs d
  | none => false

/-- Whether the timeout came within the current tick, so that an event now is synchronised in the same cycle (R185). -/
def State.waitExact (s : State) (w : Waiting) : Bool :=
  match w.deadline with
  | some d => deadlinePast s.now s.ringUs d
      && !deadlinePast (s.now - 8) (((s.time.mono : Int) + s.time.offset - 8).toNat / 1000) d
  | none => false

/-- Replace the top of a stack. -/
def replaceTop (v : Word) : List Word → List Word
  | [] => []
  | _ :: ds => v :: ds

/-- The end of a wait (R185): the top of the stack becomes ev, the context is ready, and the mailbox flag clears when
bit 2 of ev is set (R251). -/
def Context.endWait (c : Context) (w : Waiting) (ev : BitVec 7) (timeout bell near : Bool) : Context :=
  let e : BitVec 10 := ((ev ||| c.levels) &&& w.mask).zeroExtend 10
    ||| (if timeout then 0x100 else 0) ||| (if bell then 0x200 else 0)
  { c with
    state := .ready, waiting := none, lastEv := e,
    arch := { c.arch with ds := replaceTop (e.zeroExtend 36) c.arch.ds },
    near := if near then satInc c.near else c.near,
    mailbox := c.mailbox && !e.getLsbD 2,
    sync := if timeout && w.tt then
        c.sync ++ [{ code := 0x12, qual := 0, slot := 0, data := none, ms := false }]
      else c.sync }

/-- End the wait of context `t` with the given events. -/
def State.endWait (s : State) (t : Ctx) (ev : BitVec 7) (timeout bell : Bool) : State :=
  match (s.ctx t).waiting with
  | none => s
  | some w =>
    s.setCtx t ((s.ctx t).endWait w ev timeout bell (!timeout && ev &&& w.mask != 0 && s.waitExact w))

/-- The level events of context `t` may have risen: a wait that holds one of them ends. -/
def State.levelEvent (s : State) (t : Ctx) : State :=
  match (s.ctx t).waiting with
  | some w => if (s.ctx t).levels &&& w.mask = 0 then s else s.endWait t (s.ctx t).levels false false
  | none => s

/-- The write of the mailbox word of context `t` (R251). -/
def State.mailboxWritten (s : State) (t : Ctx) : State :=
  (s.modCtx t (fun c => { c with mailbox := true })).levelEvent t

/-! ### Asynchronous causes -/

def causeShortfall : BitVec 6 := 0x20
def causeVigil : BitVec 6 := 0x21
def causeKeeper : BitVec 6 := 0x22
def causeThermal : BitVec 6 := 0x23
def causeProof : BitVec 6 := 0x24
def causeWake : BitVec 6 := 0x25
def causeQuantum : BitVec 6 := 0x26
def causeDegrade : BitVec 6 := 0x28
def causeInletU : BitVec 6 := 0x10
def causeOutletO : BitVec 6 := 0x11
def causeNiwin : BitVec 6 := 0x09
def causeNiecc : BitVec 6 := 0x0a
def causeNitmo : BitVec 6 := 0x0b
def causeMnimg : BitVec 6 := 0x34

/-- The CXBEN bit of a maskable cause: codes 20h to 26h (Table FL-4). -/
def cxbenBit (code : BitVec 6) : Option (Fin 7) :=
  if h : 0x20 ≤ code.toNat ∧ code.toNat ≤ 0x26 then some ⟨code.toNat - 0x20, by omega⟩ else none

/-- Whether context `c` takes a cause: its CXBEN bit is set, or it has none (R207). -/
def Context.enables (c : Context) (code : BitVec 6) : Bool :=
  match cxbenBit code with
  | some i => c.ben.getLsbD i
  | none => true

/-- Insert an asynchronous cause after those of no higher code: they are taken in ascending cause code (R207). -/
def insertCause (r : Raise) : List Raise → List Raise
  | [] => [r]
  | x :: xs => if x.code ≤ r.code then x :: insertCause r xs else r :: x :: xs

/-- Count a dropped cause in FLDROPt (R207, R363). -/
def State.dropCause (s : State) (t : Ctx) (i : Fin 7) : State :=
  { s with faults := { s.faults with
      dropped := s.faults.dropped.set t (s.faults.dropped[t].set i (satInc s.faults.dropped[t][i])) } }

/-- Take in one cause of context `t`: pending when enabled, dropped and counted otherwise (R207). One that no handler holds up rolls a
speculation back as it arrives (R205; log 146, DEDUCED). From a stop's decision on, none is taken (Table SS-5). -/
def State.takeCause (s : State) (t : Ctx) (r : Raise) : State :=
  let c := s.ctx t
  if !c.live || s.power.phase != .run then s
  else if c.enables r.code then
    let s := s.modCtx t (fun c => { c with pend := insertCause { r with ms := c.shadow.isSome } c.pend })
    if c.inBell then s else s.rollAsync t
  else
    match cxbenBit r.code with
    | some i => s.dropCause t i
    | none => s

/-- Events and causes that reach context `t` in one cycle (R185): a wait ends when its mask holds one of the events,
or when a cause is enabled and no handler runs (R209); ev shows both. -/
def State.signal (s : State) (t : Ctx) (ev : BitVec 7) (causes : List Raise) : State :=
  let s' := causes.foldl (fun s r => s.takeCause t r) s
  let bell := !(s.ctx t).inBell && decide ((s.ctx t).pend.length < (s'.ctx t).pend.length)
  match (s'.ctx t).waiting with
  | some w => if bell || ev &&& w.mask != 0 then s'.endWait t ev false bell else s'
  | none => s'

/-- Event `i` arrives at context `t`. -/
def State.event (s : State) (t : Ctx) (i : Nat) : State := s.signal t (1#7 <<< i) []

/-- Raise an asynchronous cause in context `t`. -/
def State.raiseAsync (s : State) (t : Ctx) (code : BitVec 6) (qual : BitVec 4) (data : Word) : State :=
  s.signal t 0 [{ code := code, qual := qual, slot := 0, data := some data, ms := false }]

/-- Raise an asynchronous cause in every context that `who` selects. -/
def State.raiseWhere (s : State) (who : Ctx → Bool) (code : BitVec 6) (qual : BitVec 4) (data : Word) : State :=
  (allCtx.filter who).foldl (fun s t => s.raiseAsync t code qual data) s

/-- Events and causes that reach every context in one cycle (R116). -/
def State.signalAll (s : State) (ev : BitVec 7) (causes : List Raise) : State :=
  allCtx.foldl (fun s t => s.signal t ev causes) s

/-- A cause without data. -/
def plainCause (code : BitVec 6) (qual : BitVec 4) : Raise := { code := code, qual := qual, slot := 0, data := none, ms := false }

end Sys2Proof.Machine
end

