-- ==== Sys2Proof/Machine/Control.lean ====
section
/-! DEFINITION. The active set, its conflicts and its log (R99 to R106), HALE (R29, Table SK-10), the wake of a parked
array (R107, R253), and the end of a CAPTURE burst (R115). -/

namespace Sys2Proof.Machine

/-! ### HALE -/

/-- The tenants that drive HALE and exist. -/
def State.drives (s : State) (t : Ctx) : Bool := s.halMask.getLsbD t && s.tenantExists t

/-- No row of Table SK-10 releases HALE: the run token is renewed in RUN, the first house verdict exists, no
HALE-driving verdict is ALARM, no HALE-driving context is halted, VIGIL with z[2] = 1 is not in ACT, no CODE-FAULT is
latched and there is no SOCKET-DRIFT. -/
def State.haleAllowed (s : State) : Bool :=
  decide (s.power.phase = .run) && s.power.token && s.find.verdictAt.isSome
  && allCtx.all (fun t => !(s.drives t) || (decide ((s.tfind t).verdict ≠ .alarm) && decide ((s.ctx t).state ≠ .halted)))
  && !(s.inAct mVigil && s.code.latched.z.getLsbD 2)
  && s.code.latched.fault.isNone && !s.code.drift

/-- HALE follows Table SK-10 (R29). -/
def State.decideHale (s : State) : State := { s with power := { s.power with hale := s.haleAllowed } }

/-! ### Region trees under parking -/

/-- The source at the head of region `n`'s chain of neighbour trees (Table MN-4). -/
def State.treeSource (s : State) : Nat → BitVec 3
  | 0 => (s.region 0).source
  | n + 1 =>
    let src := (s.region (Fin.ofNat 16 (n + 1))).source
    if src = 4 then s.treeSource n else src

/-- A tree that follows CK_A/4 stops while the array is parked (R285). -/
def State.treeStopped (s : State) (r : Region) : Bool := s.modes.parked && decide (s.treeSource r.val = 2)

/-- Post ready (R283). -/
def RegionSt.postReady (x : RegionSt) : Bool :=
  decide (x.paddr ≠ x.pend) && decide (x.fifo.length < 8) && decide (x.unack < 8)

/-! ### The active set -/

/-- The OR of bits [6:0] of every request mask (R99). -/
def State.requests (s : State) : Byte := allCtx.foldl (fun a t => a ||| (s.modes.req[t] &&& 0x7f)) 0

/-- ACT as R99 gives it. -/
def State.actOf (s : State) : Byte := (s.requests ||| s.modes.hw) &&& s.permit

/-- The ordered pairs that lose under C, T, SU and SX of Table MD-4, with the loser (R104). -/
def losingPairs : List (Nat × Nat × Nat) :=
  [(mProof, mCapture, mCapture), (mProof, mSentinel, mSentinel), (mVigil, mSentinel, mSentinel),
   (mVigil, mOrder, mOrder), (mVigil, mEnvelope, mEnvelope), (mVigil, mSurvey, mSurvey), (mOrder, mHold, mHold)]

/-- One loss of mode `m` (R104): MDCONF counts it and every tenant whose grant holds the mode gets its conflict flag. -/
def State.loseMode (s : State) (m : Nat) : State :=
  let s := { s with modes := { s.modes with conf := satInc s.modes.conf } }
  s.flagAll (fun t => s.granted t m) (16 + m)

/-- The pairs of `losingPairs` that stand together in `new` and did not in `old`. -/
def newPairs (old new : Byte) : List (Nat × Nat × Nat) :=
  losingPairs.filter (fun p => new.getLsbD p.1 && new.getLsbD p.2.1 && !(old.getLsbD p.1 && old.getLsbD p.2.1))

/-- MDLOG takes a change of ACT. The cause byte's coding is not given: a free value (log 3, DESIGN CHOICE). That MDLOG0 holds the newest
is the model's choice: R117 gives no order (log 139, DESIGN CHOICE). -/
def State.logAct (s : State) (act : Byte) : State :=
  let (n, s) := s.takeFree
  let e : ModeLog := { act := act, cause := BitVec.ofNat 8 (Config.freeNat n 0), ms := s.ringMs }
  { s with modes := { s.modes with act := act, log := #v[e, s.modes.log[0], s.modes.log[1], s.modes.log[2]] } }

/-- A pool group in retention starts to wake (R253). -/
def State.wakeGroup (s : State) (g : Group) : State :=
  { s with banks := s.banks.mapFinIdx (fun i b _ =>
      if i < 16 ∧ i / 4 = g.val ∧ b.state = .retention then { b with state := .waking, wakes := satInc b.wakes, wakeAt := s.now } else b) }

/-- A packet is queued for group `g`. -/
def State.queueHolds (s : State) (g : Group) : Bool :=
  s.net.waits.any (fun p => decide (p.stage = .queued) && decide (p.req.dest.val = 8 + g.val))

/-- Group `g` enters retention (R253). -/
def State.retainGroup (s : State) (g : Group) : State :=
  { s with
    banks := s.banks.mapFinIdx (fun i b _ =>
      if i < 16 ∧ i / 4 = g.val ∧ b.state = .active then { b with state := .retention, downAt := s.now } else b),
    modes := { s.modes with follow := s.modes.follow &&& ~~~(1#4 <<< g.val) } }

/-- An inlet at the wake (R149): one that stands at a buffer boundary has stopped there, and resumes by alignment; any other has not
stopped and goes on. -/
def Inlet.wake (i : Inlet) : Inlet :=
  if i.en && decide (i.filled = 0) then { i with aligned := false, resumed := 1 }
  else if i.en && decide (1024 ≤ i.filled) then { i with aligned := false, resumed := 2 }
  else i

/-- The wake of a parked array (R107): the Pool groups wake (R253) and the inlets that have stopped resume by alignment (R149). -/
def State.wakeArray (s : State) : State :=
  if s.modes.parked then
    let s := allGroups.foldl (fun s g => s.wakeGroup g) s
    let s := allStrips.foldl (fun s k => s.modInlet k Inlet.wake) s
    { s with modes := { s.modes with parked := false, follow := 0 } }
  else s

/-- Recompute ACT (R99) with the events and causes of the same cycle: the losses of R104, MDLOG, WAIT event 5, and HALE. -/
def State.applyAct (s : State) (ev : BitVec 7) (causes : List Raise) : State :=
  let old := s.modes.act
  let new := s.actOf
  if new = old then (s.signalAll ev causes).decideHale
  else
    let s := (newPairs old new).foldl (fun s p => s.loseMode p.2.2) (s.logAct new)
    (s.signalAll (ev ||| (1#7 <<< evAct)) causes).decideHale

/-- A hardware entry or exit of mode `m` (R100): it wakes a parked array (R107), and ACT follows. -/
def State.hwMode (s : State) (m : Nat) (on : Bool) (ev : BitVec 7) (causes : List Raise) : State :=
  let bit : Byte := 1#8 <<< m
  let s := { s with modes := { s.modes with hw := if on then s.modes.hw ||| bit else s.modes.hw &&& ~~~bit } }
  s.wakeArray.applyAct ev causes

/-! ### CAPTURE bursts -/

/-- END codes of CXCAP (Table HW-6). -/
def endWritten : BitVec 3 := 1
def endLen : BitVec 3 := 2
def endFull : BitVec 3 := 3
def endGrant : BitVec 3 := 4
def endHalt : BitVec 3 := 5

/-- The end of a burst (R115): BURST clears and END records the reason. -/
def State.endBurst (s : State) (t : Ctx) (reason : BitVec 3) : State :=
  s.modCtx t (fun c =>
    if c.cap.burst then { c with cap := { c.cap with burst := false, endr := reason, counted := 0 } } else c)

/-- Some tenant's CAPTURE burst is under way. -/
def State.bursting (s : State) : Bool := allCtx.any (fun t => (s.ctx t).cap.burst)

/-- The beginning of a burst of context `t` (R115). -/
def State.beginBurst (s : State) (t : Ctx) : State :=
  s.modCtx t (fun c => { c with cap := { c.cap with burst := true, fromSi := s.time.si, counted := 0 } })

end Sys2Proof.Machine
end

