-- ==== Sys2Proof/Machine/Phys.lean ====
section
/-! DEFINITION. Physical memory (R245), the window translation of the NIs (R179, R235), the mailbox words (R251), the
routes (R228, R233; log 20, PRESUMED) and what a bank or the Weir counts for an access (R258, R264, R266). -/

namespace Sys2Proof.Machine

/-- A physical word: Pool, or Eddy (R245). -/
structure Phys where
  eddy : Bool
  word : Nat
  deriving DecidableEq, Repr

def Phys.unit (p : Phys) : Nat := p.word / 2
def Phys.block (p : Phys) : Nat := p.word / 2048
/-- The key of a unit among the units with errors: Eddy units follow the 1 048 576 Pool units. -/
def Phys.unitKey (p : Phys) : Nat := if p.eddy then 1048576 + p.unit else p.unit
/-- The line of eight words that an instruction cache keeps (Table PB-1). -/
def Phys.line (p : Phys) : Nat := if p.eddy then 262144 + p.word / 8 else p.word / 8
/-- The key of a block for snoops: Eddy blocks follow the 1 024 Pool blocks. -/
def Phys.blockKey (p : Phys) : Nat := if p.eddy then 1024 + p.block else p.block
/-- The bank that holds the word (Table PL-1). -/
def Phys.bank (p : Phys) : BankId := if p.eddy then Fin.ofNat 20 (16 + p.block / 8 % 4) else Fin.ofNat 20 (p.block / 64 % 16)
/-- The unit's index in its bank. -/
def Phys.bankUnit (p : Phys) : Nat := if p.eddy then p.unit % 8192 else p.unit % 65536
/-- The Pool group, none for Eddy. -/
def Phys.group (p : Phys) : Option Group := if p.eddy then none else some (Fin.ofNat 4 (p.block / 256))
/-- The Pool group of a bank. -/
def bankGroup (b : BankId) : Option Group := if b.val < 16 then some (Fin.ofNat 4 (b.val / 4)) else none
/-- The destination NI: PG0 to PG3 or ED (Table TR-1). -/
def Phys.ni (p : Phys) : NiId := if p.eddy then 0x0c else Fin.ofNat 24 (8 + p.block / 256 % 4)

/-- The word as it stands. -/
def State.peek (s : State) (p : Phys) : Word := Mem.get 0 (if p.eddy then s.eddy else s.pool) p.word

/-- Whether the word's unit holds an uncorrectable error. -/
def State.poisoned (s : State) (p : Phys) : Bool := s.poison.contains p.unitKey

/-- The context whose mailbox the word is, if any: Eddy word 7F0h + t of block 31 (R251). -/
def mailboxOf (p : Phys) : Option Ctx :=
  if p.eddy ∧ p.block = 31 ∧ 0x7f0 ≤ p.word % 2048 then some (Fin.ofNat 16 (p.word % 2048 - 0x7f0)) else none

/-- The mailbox flag that a write of the word sets. -/
def State.ringMailbox (s : State) (p : Phys) : State :=
  match mailboxOf p with
  | some t => s.mailboxWritten t
  | none => s

/-- Write a word; a mailbox word sets its context's flag. -/
def State.poke (s : State) (p : Phys) (w : Word) : State :=
  let s := if p.eddy then { s with eddy := Mem.set 0 s.eddy p.word w } else { s with pool := Mem.set 0 s.pool p.word w }
  s.ringMailbox p

/-- The physical address of `word` in the unit of `p`. -/
def Phys.half (p : Phys) (odd : Bool) : Phys := { p with word := 2 * p.unit + (if odd then 1 else 0) }

/-- Write a whole unit with fresh check bits (R248, R255): its uncorrectable error ends. -/
def State.pokeUnit (s : State) (p : Phys) (u : BitVec 72) : State :=
  let s := { s with poison := s.poison.filter (fun k => decide (k ≠ p.unitKey)) }
  (s.poke (p.half false) (u.extractLsb' 0 36)).poke (p.half true) (u.extractLsb' 36 36)

/-- The unit's 72 bits, even word low (R230). -/
def State.peekUnit (s : State) (p : Phys) : BitVec 72 := s.peek (p.half true) ++ s.peek (p.half false)

/-! ### Windows -/

/-- Whether a valid window covers a tenant bank. -/
def Window.covers (w : Window) (bank : Nat) : Bool :=
  w.valid && decide (w.base.toNat ≤ bank) && decide (bank < w.base.toNat + w.len.toNat)

/-- The physical word of a tenant address in a window (R235). -/
def Window.phys' (w : Window) (addr : BitVec 18) : Phys :=
  { eddy := w.eddy, word := (w.phys.toNat + addr.toNat / 2048 - w.base.toNat) * 2048 + addr.toNat % 2048 }

/-- The first of the windows that covers the address and may be written, if it has to be (R179). -/
def findWindow (wins : List Window) (addr : BitVec 18) (write : Bool) : Option Phys :=
  match wins.find? (fun w => w.covers (addr.toNat / 2048) && (!write || w.writable)) with
  | some w => some (w.phys' addr)
  | none => none

/-- The window check and translation for tenant `t` (R235). -/
def State.translate (s : State) (t : Ctx) (addr : BitVec 18) (write : Bool) : Option Phys :=
  findWindow (s.ctx t).wins.toList addr write

/-! ### Routes -/

/-- Where an NI attaches: router, local port and spoke (Table TR-1). -/
def niPlace : Vector (RouterId × Bool × Bool) 24 :=
  -- H0 M10, H1 M20, H2 M13, H3 M23
  #v[(1, false, false), (2, false, false), (13, false, false), (14, false, false),
  -- OQ0 M01, OQ1 M31, OQ2 M02, OQ3 M32
    (4, false, false), (7, false, false), (8, false, false), (11, false, false),
  -- PG0 M11, PG1 M21, PG2 M12, PG3 M22
    (5, false, false), (6, false, false), (9, false, false), (10, false, false),
  -- ED M11, CA M00 spoke, ME M30, MW M00 local 1
    (5, true, false), (0, false, true), (3, false, false), (0, true, false),
  -- MP M33 spoke, MB M33 local 1 spoke, LK M03, GA M01 local 1
    (15, false, true), (15, true, true), (12, false, false), (4, true, false),
  -- SL M10 local 1, KS M03 local 1, TB M20 local 1, PD M22 local 1
    (1, true, false), (12, true, false), (2, true, false), (10, true, false)]

/-- Hop codes along one axis: `n` steps of `code`. -/
def hopRun (code : BitVec 3) (n : Nat) : List (BitVec 3) := List.replicate n code

/-- The hops from router `a` to router `b`: columns first, then rows (log 20, PRESUMED). -/
def meshHops (a b : RouterId) : List (BitVec 3) :=
  let ax := a.val % 4
  let bx := b.val % 4
  let ay := a.val / 4
  let byy := b.val / 4
  hopRun 1 (bx - ax) ++ hopRun 3 (ax - bx) ++ hopRun 2 (byy - ay) ++ hopRun 0 (ay - byy)

/-- The hop codes of the route from NI `n` to NI `e`, the local code last (R233). -/
def routeHops (n e : NiId) : List (BitVec 3) :=
  meshHops niPlace[n].1 niPlace[e].1 ++ [if niPlace[e].2.1 then 5 else 4]

/-- The ROUTE field: hop 0 lowest, unused hops 111b. -/
def packHops : Nat → List (BitVec 3) → Nat
  | 0, _ => 0
  | n + 1, [] => 7 + 8 * packHops n []
  | n + 1, h :: hs => h.toNat + 8 * packHops n hs

/-- The router that a mesh hop leads to from `r`, if the mesh has that link. -/
def hopTo (r : RouterId) (h : BitVec 3) : Option RouterId :=
  match h with
  | 0 => if 4 ≤ r.val then some (Fin.ofNat 16 (r.val - 4)) else none
  | 1 => if r.val % 4 < 3 then some (Fin.ofNat 16 (r.val + 1)) else none
  | 2 => if r.val < 12 then some (Fin.ofNat 16 (r.val + 4)) else none
  | 3 => if 0 < r.val % 4 then some (Fin.ofNat 16 (r.val - 1)) else none
  | _ => none

/-- A router takes hop 0 and shifts ROUTE right by three bits, filling with 111b (R233). -/
def takeHop (route : BitVec 21) : BitVec 3 × BitVec 21 := (route.extractLsb' 0 3, (7#3) ++ route.extractLsb' 3 18)

/-- Where a packet leaves the mesh: at a local port, or at the router that finds a misroute (R233). -/
inductive RouteEnd
  | ejected (r : RouterId) (local1 : Bool)
  | misrouted (r : RouterId)
  deriving DecidableEq, Repr

/-- The routers that forward a packet with the given ROUTE from router `r` on, and where it leaves the mesh: each takes its hop,
and a reserved code or a port without a link is a misroute (R233). -/
def followRoute : (fuel : Nat) → RouterId → BitVec 21 → List RouterId × RouteEnd
  | 0, r, _ => ([], .misrouted r)
  | n + 1, r, route =>
    let h := takeHop route
    if h.1 = 4 then ([r], .ejected r false)
    else if h.1 = 5 then ([r], .ejected r true)
    else
      match hopTo r h.1 with
      | some r' => let x := followRoute n r' h.2; (r :: x.1, x.2)
      | none => ([], .misrouted r)

/-- The NI at a local port of a router (Table TR-1). -/
def niAt (r : RouterId) (local1 : Bool) : Option NiId :=
  (List.finRange 24).find? (fun n => decide (niPlace[n].1 = r) && decide (niPlace[n].2.1 = local1))

/-- The route-table entry from NI `n` to NI `e`. -/
def State.routeTo (s : State) (n e : NiId) : Route := s.net.routes[n][(Fin.ofNat 32 e.val)]

/-- The routers that forward a packet from NI `n` to NI `e`, by the ROUTE of the NI's table. -/
def State.pathTo (s : State) (n e : NiId) : List RouterId := (followRoute 7 niPlace[n].1 (s.routeTo n e).hops).1

/-- Units forwarded by every router on the way (RTUNITS). -/
def State.forward (s : State) (n e : NiId) (units : Nat) : State :=
  (s.pathTo n e).foldl (fun s r => s.modRouter r (fun x => { x with units := x.units + BitVec.ofNat 36 units })) s

/-! ### What the Weir counts -/

/-- CK_N cycles in a time in ns, counted up (R228: 400 MHz). -/
def cyclesOf (ns : Nat) : Nat := (2 * ns + 4) / 5

/-- The CK_N cycle of the instant (R263). -/
def State.cycle (s : State) : Nat := cyclesOf s.now

/-- The 65 536 CK_N cycles of a window, in ns (R263). -/
def windowNs : Nat := 163840

/-- The first cycle past the window under way. -/
def State.windowEnd (s : State) : Nat := cyclesOf (s.weir.winAt + windowNs)

/-- Whether class `q` is over budget at `g` (R264). -/
def WeirClass.overBudget (c : WeirClass) (g : Group) : Bool := decide (c.recd.budget[g] ≤ c.bytes[g].toNat)

/-! The priority law (R267). -/

def WeirClass.boost (c : WeirClass) : Nat := if c.recd.target = 0 then 0 else Nat.min 7 (c.lf.toNat / (8 * c.recd.target))

/-- eff toward group `g`, and toward other destinations. -/
def WeirClass.effAt (c : WeirClass) (g : Group) : Nat :=
  let e := c.recd.b + c.boost
  if c.overBudget g then Nat.min 3 e else e
def WeirClass.effElse (c : WeirClass) : Nat := c.recd.b + c.boost

/-- How a packet of class `q` ranks toward a group, or toward any other destination (R262, R267): QC 0 above every tenant. -/
def State.rank (s : State) (q : BitVec 4) (g : Option Group) : Nat :=
  if q = 0 then 16
  else
    match g with
    | some g => (s.cls q).effAt g
    | none => (s.cls q).effElse

/-- Bank cycles `c` to `c + n` of class `q` in group `g`: nine bytes each in the window in which the cycle falls (R263, R264), and
R272's bytes under shortfall. -/
def State.charge (s : State) (q : BitVec 4) (g : Group) (c n : Nat) : State :=
  if q = 0 then s
  else
    let now := Nat.min n (s.windowEnd - c)
    let short := s.weir.sf.getLsbD g.val
    s.modCls q (fun x =>
      { x with
        bytes := x.bytes.set g (satAdd x.bytes[g] (9 * now)),
        next := x.next.set g (x.next[g] + 9 * (n - now)),
        sfb := if short then x.sfb + BitVec.ofNat 36 (9 * now) else x.sfb,
        sfServed := if short then x.sfServed.set g (x.sfServed[g] + 9 * now) else x.sfServed })

/-- A completion of class `q` at cycle `at_` with its latency sample (R266), kept for every class. -/
def State.complete (s : State) (q : BitVec 4) (at_ sample : Nat) : State :=
  let later := decide (s.windowEnd < at_)
  s.modCls q (fun c =>
    { c with
      lf := satAdd (BitVec.ofNat 28 (c.lf.toNat - c.lf.toNat / 64)) sample, cmp := c.cmp + 1,
      lcur := if later then c.lcur else Nat.max c.lcur sample,
      lnext := if later then Nat.max c.lnext sample else c.lnext })

/-- The CK_N cycles of the window under way that bank `b` has been out of service (R274). -/
def State.lostCycles (s : State) (b : BankId) : Nat := (s.now - Nat.max (s.bank b).downAt s.weir.winAt) * 2 / 5

/-- Bank cycles of group `g` lost to tenant traffic. -/
def State.loseCycles (s : State) (g : Group) (n : Nat) : State :=
  { s with weir := { s.weir with lostCur := s.weir.lostCur.set g (s.weir.lostCur[g] + n) } }

/-- A tenant affected by a shortfall of group `g` (R273): the cause once a window, and its flag in the finding whose data
overlaps the window. -/
def State.tellShort (s : State) (g : Group) (t : Ctx) : State :=
  if s.weir.told[g].getLsbD t.val then s
  else
    let s := { s with
      weir := { s.weir with told := s.weir.told.set g (s.weir.told[g] ||| (1#16 <<< t.val)) },
      find := { s.find with shorts := s.find.shorts ++ [(t, g, s.weir.winAt)] } }
    s.signal t 0 [plainCause causeShortfall (BitVec.ofNat 4 g.val)]

/-- The owner of class `q` has a packet for `g` while a shortfall holds there (R273). -/
def State.underShort (s : State) (q : BitVec 4) (g : Group) : State :=
  match (s.cls q).recd.owner with
  | some t => if s.weir.sf.getLsbD g.val then s.tellShort g t else s
  | none => s

/-- What a Pool access of class `q` counts in the Weir: its bank cycles from `c` on and its completion, whose header arrived in
cycle `since` (R262, R264, R266). Eddy accesses count nothing. -/
def State.weirAccess (s : State) (p : Phys) (q : BitVec 4) (c cycles since : Nat) : State :=
  match p.group with
  | some g => ((s.underShort q g).charge q g c cycles).complete q (c + cycles) (c + cycles - since)
  | none => s

/-! ### Bank counters -/

/-- One unit read. -/
def State.countRead (s : State) (p : Phys) (n : Nat) : State :=
  s.modBank p.bank (fun b => { b with rdu := b.rdu + BitVec.ofNat 36 n, busy := b.busy + BitVec.ofNat 36 n })
/-- Units written whole. -/
def State.countWrite (s : State) (p : Phys) (n : Nat) : State :=
  s.modBank p.bank (fun b => { b with wru := b.wru + BitVec.ofNat 36 n, busy := b.busy + BitVec.ofNat 36 n })
/-- One WRW merge: a read and a write, two bank cycles (R248). -/
def State.countMerge (s : State) (p : Phys) : State :=
  s.modBank p.bank (fun b =>
    { b with rdu := b.rdu + 1, wru := b.wru + 1, busy := b.busy + 2, rmw := satInc b.rmw })

end Sys2Proof.Machine
end

