-- ==== Sys2Proof/Machine/Flush.lean ====
section
/-! DEFINITION. Flushes of the queues that an NI holds for a tenant (R243). -/

namespace Sys2Proof.Machine

/-- The NI of a unit and of a strip's outlet quad (Table TR-1). -/
def unitNi (n : UnitId) : NiId := Fin.ofNat 24 n.val
def quadNi (k : Strip) : NiId := Fin.ofNat 24 (4 + k.val / 4)

/-- The units of a waiting packet, its header included. -/
def Packet.size (p : Packet) : Nat := 1 + p.units.length

/-- A packet of tenant `t` at NI `n`; traffic with QC 0 is never flushed. -/
def Packet.belongs (p : Packet) (n : NiId) (t : Ctx) : Bool :=
  decide (p.req.src = n) && decide (p.req.ten = t) && decide (p.req.qc ≠ 0)

/-- The units that fit on a packet's way once it waits before its destination: four in each router's buffer (R229). -/
def State.wayRoom (s : State) (p : Packet) : Nat := 4 * (s.pathTo p.req.src p.req.dest).length

/-- The packet has not begun injection. -/
def Packet.unsent (p : Packet) : Bool := decide (p.stage = .atNi)

/-- The packet has begun injection and has units that have not left its NI yet. -/
def State.partSent (s : State) (p : Packet) : Bool := decide (p.stage = .mesh) && decide (s.wayRoom p < p.size)

/-- The units of the packet that its producer has still to write: beyond the eight items of the NI's FIFO (R240), or beyond its way. -/
def State.unwritten (s : State) (p : Packet) : Nat := if p.unsent then p.size - 8 else p.size - s.wayRoom p

/-- What a flush takes of NI `n`'s queue for tenant `t`: packets not begun, and packets part sent, which a poisoned tail ends. -/
def State.flushed (s : State) (n : NiId) (t : Ctx) : List Packet :=
  s.net.waits.filter (fun p => p.belongs n t && (p.unsent || s.partSent p))

/-- A flushed packet: an outlet send counts as dropped in OUTSENT, and a transaction that was outstanding is so no longer. -/
def State.dropPacket (s : State) (p : Packet) : State :=
  let s := { s with net := { s.net with waits := s.net.waits.erase p } }
  let s := match p.own, p.req.purpose with
    | true, .outlet k => s.modOutlet k (fun o =>
        { o with dropped := satInc o.dropped, sent := if p.unsent then o.sent else o.sent - 1 })
    | _, _ => s
  if !p.unsent && decide (p.req.dest.val < 0x0c) then s.modCls p.req.qc (fun c => { c with out := c.out - 1 }) else s

/-- NI `n` begins a flush for tenant `t` (R243): what its producers have still to write runs into discard. -/
def State.flushNi (s : State) (n : NiId) (t : Ctx) : State :=
  let l := s.flushed n t
  let left := (l.map (fun p => s.unwritten p)).sum
  let s := l.foldl (fun s p => s.dropPacket p) s
  { s with net := { s.net with
      flushing := s.net.flushing.set n (s.net.flushing[n] ||| (1#16 <<< t.val)),
      draining := s.net.draining.set n (s.net.draining[n] + left) } }

/-- NI `n` holds something of tenant `t`. -/
def State.holdsFor (s : State) (n : NiId) (t : Ctx) : Bool :=
  s.net.waits.any (fun p => p.belongs n t)
    || s.net.tags.any (fun x => decide (x.ni = n) && decide (x.req.ten = t) && decide (x.req.qc ≠ 0))

/-- The flush of NI `n` for all tenants. -/
def State.flushAll (s : State) (n : NiId) : State :=
  (allCtx.filter (fun t => s.holdsFor n t)).foldl (fun s t => s.flushNi n t) s

/-- No flush is under way. -/
def State.flushesDone (s : State) : Bool := s.net.flushing.all (fun f => decide (f = 0))

end Sys2Proof.Machine
end

