-- ==== Sys2Proof/Machine/Proof.lean ====
section
/-! DEFINITION. The PROOF schedule (R109): scheduled windows, the allowance, and the requests that wait for it. -/

namespace Sys2Proof.Machine

/-- A PROOF window is open (Table MD-7, PRFWIN). -/
def State.proofOpen (s : State) : Bool := s.modes.hw.getLsbD mProof

/-- The last whole second of ring time, on `mono`. -/
def State.wholeSecond (s : State) : Nat := s.now - s.ringNs % sec

/-- The first whole second of ring time at or after instant `x`, when `x` lies ahead. -/
def State.secondFrom (s : State) (x : Nat) : Nat :=
  let w := s.wholeSecond
  if x ≤ w then w else w + (x - w + sec - 1) / sec * sec

/-- Lengths of the windows in milliseconds. -/
def scheduledMs : Nat := 1200
def requestedMs : Nat := 400

/-- Whether a requested window may open at `x`, when requested windows ended or will end at `ends`: with it, at most 0.8 s
of requested windows lie in any 3 600 s, and it meets no scheduled one. -/
def State.mayOpen (s : State) (ends : List Nat) (x : Nat) : Bool :=
  let stop := x + requestedMs * ms
  let due := s.secondFrom s.modes.dueAt
  decide ((ends.filter (fun e => decide (stop < e + 3600 * sec))).length < 2)
  && (decide (stop ≤ due) || decide (due + scheduledMs * ms ≤ x))

/-- Allot whole seconds to waiting requests in order, from `from_`: those allotted, and those that cannot be met within
3 600 s. -/
def State.allot (s : State) (from_ : Nat) : List Nat → List Ctx → List (Ctx × Nat) × List Ctx
  | _, [] => ([], [])
  | ends, t :: ts =>
    match (List.range 3600).find? (fun k => decide (from_ + k * sec ≤ s.now + 3600 * sec) && !(ends.contains (from_ + k * sec + requestedMs * ms)) && s.mayOpen ends (from_ + k * sec)) with
    | some k =>
      let r := s.allot from_ ((from_ + k * sec + requestedMs * ms) :: ends) ts
      ((t, from_ + k * sec) :: r.1, r.2)
    | none =>
      let r := s.allot from_ ends ts
      (r.1, t :: r.2)

/-- Refuse the PROOF request of context `t`. -/
def Modes.refuseProof (m : Modes) (t : Ctx) : Modes :=
  { m with req := m.req.set t (m.req[t] &&& 0x7f), prfref := m.prfref ||| (1#16 <<< t.val) }

/-- Plan the requested windows while none is open: in ascending context number, at the next whole seconds at which the
allowance permits. Log 92, DEDUCED. -/
def State.planProof (s : State) : State :=
  if s.proofOpen then s
  else
    let waiting := allCtx.filter (fun t => s.modes.req[t].getLsbD 7)
    let ends := (s.modes.usedLog.filter (fun e => !e.2.2)).map (·.1)
    let r := s.allot (s.wholeSecond + sec) ends waiting
    let m := r.2.foldl (fun m t => m.refuseProof t) s.modes
    let first := r.1.foldl (fun (best : Option (Ctx × Nat)) x =>
      match best with
      | some b => if x.2 < b.2 then some x else some b
      | none => some x) none
    { s with modes := { m with window := first.map (fun x =>
        { scheduled := false, requester := some x.1, openAt := x.2, closeAt := x.2 + requestedMs * ms }) } }

/-- A requested PROOF window of context `t` that is not yet open is withdrawn (R109). -/
def State.withdrawProof (s : State) (t : Ctx) : State :=
  let open_ := s.proofOpen && (match s.modes.window with
    | some w => decide (w.requester = some t)
    | none => false)
  if open_ || s.modes.req[t].getLsbD 7 = false then s
  else ({ s with modes := { s.modes with req := s.modes.req.set t (s.modes.req[t] &&& 0x7f) } }).planProof

end Sys2Proof.Machine
end

