-- ==== Sys2Proof/Machine/Stop.lean ====
section
/-! DEFINITION. The stop of R64 from its decision instant: HALE, the run token, the drain, the counted faults of the
interval cut short, and GOING (R317). -/

namespace Sys2Proof.Machine

/-- Stop cause codes (Table MR-3; 00h for POWER-ON, Table FL-9). -/
def StopCause.code : StopCause → Byte
  | .powerOn => 0
  | .brownOut => 1
  | .watchdog => 2
  | .c4 => 3
  | .restart => 4
  | .thermal => 5
  | .fuse => 6

/-- The restart expectation of GOING, in seconds: 10 for C4, FFFFh where it is unknown, 0 otherwise (R317; log 22, DEDUCED). -/
def StopCause.expect : StopCause → Nat
  | .c4 => 10
  | .brownOut => 0xffff
  | .thermal => 0xffff
  | _ => 0

/-- Send GOING (R317). It is sent whether or not the first house verdict exists (R52). -/
def State.sendGoing (s : State) (cause : StopCause) (reason : BitVec 32) : State :=
  let body := [cause.code] ++ bytesBE cause.expect 2 ++ bytesBE s.lock.nonce.toNat 8 ++ bytesBE reason.toNat 4 ++ [0]
  s.emit nodeGroup etMillrace (s.millrace 0x09 0 body) false

/-- Drain one older store at a stop: it is written unless its window check fails, its bank is offline or its unit holds
an uncorrectable error, which counts (R212, R238, R248, R255, R257). -/
def State.drainStop (s : State) (e : StoreEntry) : State :=
  if e.spec then s
  else
    match s.translate e.ctx e.addr true with
    | some p =>
      if (s.bank p.bank).state = .offline then s
      else if s.poisoned p then
        ((s.countRead p 1).modBank p.bank (fun x =>
          { x with unc := satInc x.unc, uadr := BitVec.ofNat 16 p.bankUnit, uvalid := true, uscrub := false })).c1 0x42
          (BitVec.ofNat 8 p.bank.val) p.bankUnit none
      else (s.countMerge p).poke p e.val
    | none => s

/-- The NIs that carry tenant traffic (R235). -/
def tenantNis : List NiId := (List.finRange 24).filter (fun n => decide (n.val < 8) || decide (n = 0x0e) || decide (n = 0x0f))

/-- Every unit drains its older stores and discards the speculative ones (Table PB-7). Then all tenant queues are flushed (R64, R243). -/
def State.drainAllStop (s : State) : State :=
  let s := allUnits.foldl (fun s n => (s.hunit n).buffer.foldl (fun s e => s.drainStop e) s) s
  let s := { s with units := s.units.map (fun u => { u with buffer := [], ctx := none, swapPend := false }) }
  tenantNis.foldl (fun s n => s.flushAll n) s

/-- A context at a stop, its speculation rolled back: it runs no further and its wait ends. A strand op under way runs on to its boundary
(R64, R205). -/
def Context.stopped (c : Context) : Context :=
  { c with
    state := if c.live then .ready else c.state, waiting := none, pend := [], branch := none, shadow := none, rerun := none,
    queued := none, sync := [] }

/-- Every context stops; a speculation rolls back (R205). -/
def State.stopContexts (s : State) : State :=
  let s := allCtx.foldl (fun s t => s.rollAsync t) s
  { s with ctxs := s.ctxs.map Context.stopped }

/-- The object with the most events of a counted kind, the lowest-numbered among equals, and the sum of events. -/
def countedSum (code : Byte) (l : List (Byte × Byte × Nat)) : Nat :=
  (l.filter (fun e => decide (e.1 = code))).foldl (fun n e => n + e.2.2) 0

def countedTop (code : Byte) (l : List (Byte × Byte × Nat)) : Byte :=
  ((l.filter (fun e => decide (e.1 = code))).foldl (fun (best : Option (Byte × Nat)) e =>
    match best with
    | none => some (e.2.1, e.2.2)
    | some (o, n) => if n < e.2.2 ∨ (n = e.2.2 ∧ e.2.1 < o) then some (e.2.1, e.2.2) else some (o, n)) none).elim 0 (·.1)

/-- The counted C1 kinds, in ascending code (Table FL-3). -/
def countedKinds : List Nat := [0x40, 0x41, 0x43, 0x44, 0x45, 0x46, 0x70, 0x71]

/-- Record one entry for every counted kind that has risen, and begin the next interval (R375). -/
def State.recordCounted (s : State) : State :=
  let l := s.faults.counted
  let s := countedKinds.foldl (fun s code =>
    let n := countedSum (BitVec.ofNat 8 code) l
    if n = 0 then s else s.c1 code (countedTop (BitVec.ofNat 8 code) l) (Nat.min n 0xffff) none) s
  { s with faults := { s.faults with counted := [] } }

/-- An own FINDING frame, and the finding in it (Tables MR-1, MR-6). -/
def State.isFinding (s : State) (f : Frame) : Bool :=
  decide (f.src = s.address) && decide (f.etherType = etMillrace) && decide (byteAt f.payload 1 = 2)
def findingOf (f : Frame) : Finding := { tenant := Fin.ofNat 16 (byteAt f.payload 24).toNat, body := f.payload.drop 24 }

/-- The FINDING frames that wait at the ports, each once. -/
def State.queuedFindings (s : State) : List Frame :=
  let a := (s.ring.portA.qOwn.map (·.2)).filter s.isFinding
  let b := (s.ring.portB.qOwn.map (·.2)).filter (fun f => s.isFinding f && !a.any (fun g => decide (g.seq = f.seq)))
  a ++ b

/-- What becomes of findings not yet sent at D (Table SS-5): in HOLD they go to the finding ledger, otherwise those that wait behind a
replay are queued too. -/
def State.settleFindings (s : State) : State :=
  if s.inAct mHold then
    let fs := s.queuedFindings
    let drop (p : PortSt) : PortSt := { p with qOwn := p.qOwn.filter (fun e => !s.isFinding e.2) }
    let s := { s with ring := { s.ring with portA := drop s.ring.portA, portB := drop s.ring.portB } }
    (fs.foldl (fun s f => s.toLedger (findingOf f)) s).divertBehind
  else
    let fs := s.find.behind
    fs.foldl (fun s f => s.emit keeperGroup etMillrace (s.millrace 0x02 0 (List.replicate 8 0 ++ f.body)) false)
      { s with find := { s.find with behind := [] } }

/-- A stop may begin: in RUN, and for C4 in a start before it (R343). -/
def Power.stops (p : Power) (cause : StopCause) : Bool :=
  decide (p.phase = .run) || (decide (p.phase = .starting) && decide (cause = .c4))

/-- The decision instant D of a stop (R64, Table SS-5). A C4 decided during another stop is recorded in the stop record (Edges of 04).
Log 51, DEDUCED. -/
def State.decideStop (s : State) (cause : StopCause) (reason : BitVec 32) : State :=
  if s.power.phase = .stopping then
    if cause = .c4 then { s with power := { s.power with c4InStop := true } } else s
  else if s.power.stops cause = false then s
  else
    let s := { s with power := { s.power with
      phase := .stopping, token := false, hale := false, decidedAt := s.now, stopCause := cause, stopReason := reason,
      c4InStop := false } }
    let s := s.stopContexts.drainAllStop
    (s.settleFindings.recordCounted).sendGoing cause reason

end Sys2Proof.Machine
end

