-- ==== Sys2Proof/Machine/Halt.lean ====
section
/-! DEFINITION. Faults in hand (R352 to R358): the fault stack, the C2 halt of a context, strips, units and banks taken
offline, and C4. -/

namespace Sys2Proof.Machine

/-! ### The fault stack -/

/-- Where a queued fault stands: behind every queued fault of its class or higher (R358). -/
def queueFault (f : FaultInHand) : List FaultInHand → List FaultInHand
  | [] => [f]
  | x :: xs => if f.cls ≤ x.cls then x :: queueFault f xs else f :: x :: xs

/-- Place a fault in a stack of fewer than four (R358). -/
def placeFault (f : FaultInHand) : List FaultInHand → List FaultInHand
  | [] => [f]
  | h :: q => if h.cls < f.cls then f :: { h with preempted := true } :: q else h :: queueFault f q

/-- A C4 fault begins the stop with cause C4 (R352, R358). -/
def State.beginC4 (s : State) : State := s.decideStop .c4 0

/-- Record a C2, C3 or C4 fault and place it (R358): a fifth is ESCALATED, and C4. -/
def State.takeFault (s : State) (code : Nat) (object : Byte) (detail : Nat) (ctx : Option Ctx) (unit : Option UnitId) :
    State :=
  let cls := faultClass code
  if 4 ≤ s.faults.stack.length then
    let s := s.recordFault 0x65 (BitVec.ofNat 8 code) (cls * 256) ctx unit true
    ({ s with faults := { s.faults with escal := satInc s.faults.escal } }).beginC4
  else
    let s := s.recordFault code object detail ctx unit false
    let f : FaultInHand := { code := BitVec.ofNat 8 code, cls := cls, ctx := ctx.getD 0, preempted := false }
    let s := { s with faults := { s.faults with stack := placeFault f s.faults.stack } }
    if cls = 4 then s.beginC4 else s

/-! ### The halt of a context -/

/-- The parking value of output `k`: its code of the image in force, with tap strobe and post valid at 0 (Table MN-6). -/
def parkBit (im : Image) (outs : Vector Bool 40) (k : Fin 40) : Bool :=
  if im.outputs[k] = 2 ∨ im.outputs[k] = 0x30 then false
  else if im.parking[k] = 1 then true
  else if im.parking[k] = 2 then outs[k]
  else false

/-- A region parks without loading (R288): its outputs take their parking values, its FIFO is flushed. -/
def RegionSt.park (r : RegionSt) : RegionSt :=
  { r with outs := Vector.ofFn (fun k => parkBit r.image r.outs k), state := if r.state = .blank then .blank else .parked,
           fifo := [], reqSlot := none, tapTaken := true, postTaken := true }

/-- The regions of tenant `t` park, and its requests at the configuration engine end (R288). -/
def State.parkRegions (s : State) (t : Ctx) : State :=
  { s with mea := { s.mea with
      regions := s.mea.regions.map (fun r => if r.owner = some t then r.park else r),
      queue := s.mea.queue.filter (fun r => decide ((s.region r).owner ≠ some t)),
      engine := match s.mea.engine with
        | some e => if (s.region e.1).owner = some t then none else some e
        | none => none } }

/-- A plane has begun: the next bit does not open it. -/
def Inlet.within (i : Inlet) : Bool := decide (i.filled % 1024 ≠ 0)

/-- An inlet disabled: its partly filled buffer is discarded (R144, R353). -/
def Inlet.disable (i : Inlet) : Inlet := { i with en := false, filled := 0, fill := 0, aligned := false }

/-- An outlet's waiting buffers dropped by a flush (R243): each counts in OUTSENT as dropped. -/
def Outlet.flush (o : Outlet) : Outlet :=
  { o with ready := [], inOp := [], opened := none, saved := none, dropped := satAdd o.dropped o.ready.length }

/-- The strips of tenant `t` at its halt: inlets disabled, outlets flushed. -/
def State.quietStrips (s : State) (t : Ctx) : State :=
  { s with braid := { s.braid with strips := s.braid.strips.map (fun x =>
      if x.owner = some t then { x with inlet := x.inlet.disable, outlet := x.outlet.flush } else x) } }

/-- The flush of a context halt: its unit's NI and the quads of its strips. -/
def State.flushTenant (s : State) (t : Ctx) : State :=
  let s := if (s.ctx t).state = .running then s.flushNi (unitNi (s.ctx t).unit) t else s
  (allStrips.filter (fun k => s.ownsStrip t k)).foldl (fun s k => s.flushNi (quadNi k) t) s

/-- The halted context (R353). -/
def Context.halt (c : Context) : Context :=
  { c with
    state := .halted, waiting := none, pend := [], spec := none, branch := none, shadow := none, sop := none,
    rerun := none, queued := none, results := [], sync := [],
    cap := if c.cap.burst then { c.cap with burst := false, endr := endHalt, counted := 0 } else c.cap }

/-- The F7h finding of a halt, with the halt's entry, under the tenant's own key (R353, R325). -/
def State.haltFinding (s : State) (t : Ctx) (e : FaultEntry) : State :=
  if s.power.phase = .run then
    s.formFinding t 0xf7 (s.tfind t).verdict.code s.time.si.toNat 0 (sysEntry 0x0001 e.bytes) true
  else s

/-- The steps of a halt (R353) for the fault entry `e`. A context already halted stays as it is. -/
def State.haltSteps (s : State) (t : Ctx) (e : FaultEntry) : State :=
  if (s.ctx t).state = .halted then s
  else
    let s := (s.keepSeq t).flushTenant t
    let s := { s with units := s.units.map (fun (u : HUnit) =>
      { u with buffer := u.buffer.filter (fun x => decide (x.ctx ≠ t)),
               ctx := if u.ctx = some t then none else u.ctx }) }
    let s := ((s.dropProv t).quietStrips t).parkRegions t
    let s := (s.modCtx t Context.halt).withdrawProof t
    let s := { s with modes := { s.modes with req := s.modes.req.set t 0 } }
    (s.applyAct 0 []).haltFinding t e

/-- A C2 fault that halts context `t` (R352, R353). For a context already halted it is recorded as nested and changes nothing
(Edges of 20). Log 125, DEDUCED. -/
def State.haltCtx (s : State) (t : Ctx) (code : Nat) (object : Byte) (detail : Nat) (unit : Option UnitId) : State :=
  let e := s.faultEntry code object detail (some t) unit false
  if (s.ctx t).state = .halted then s.recordEntry { e with nested := true }
  else (s.haltSteps t e).takeFault code object detail (some t) unit

/-- BCAUSE, BDATA and BSLOT record a kind H cause (R357); `sp` says that a speculation held it to the commit (R201). -/
def State.recordCause (s : State) (t : Ctx) (code : BitVec 6) (data : Word) (slot : BitVec 2) (sp : Bool) : State :=
  s.modCtx t (fun c => { c with bcause := code.zeroExtend 36 ||| (if sp then 0x200 else 0), bdata := data, bslot := slot })

/-! ### C3 objects (Table FL-2) -/

/-- DEGRADE to a context (R354). -/
def State.degrade (s : State) (t : Ctx) (qual : BitVec 4) (data : Nat) : State :=
  s.raiseAsync t causeDegrade qual (BitVec.ofNat 36 data)

/-- DEGRADE to every context that `who` selects. -/
def State.degradeWhere (s : State) (who : Ctx → Bool) (qual : BitVec 4) (data : Nat) : State :=
  s.raiseWhere who causeDegrade qual (BitVec.ofNat 36 data)

/-- The spare strips in service, lowest first. -/
def State.spares (s : State) : List Strip := allStrips.filter (fun j => (s.strip j).spare && !(s.strip j).offline)

/-- The lowest spare strip that passes the read made when it is chosen (R155, R355). Which spares fail the next read comes with the
start's environment (log 23, DESIGN CHOICE). -/
def State.pickSpare (s : State) : Option Strip := s.spares.find? (fun j => !((s.braid.spareReads.headD 0).getLsbD j.val))

/-- The spares read before it, which fail. -/
def State.badSpares (s : State) : List Strip := s.spares.takeWhile (fun j => (s.braid.spareReads.headD 0).getLsbD j.val)

/-- Every plane, C and A of a strip as zero, zero and one (R140, R355). -/
def State.clearPlanes (s : State) (k : Strip) : State :=
  { s with braid := { s.braid with
      planes := s.braid.planes.filter (fun e => decide (e.1 / 4096 ≠ k.val)),
      carry := s.braid.carry.filter (fun e => decide (e.1 ≠ k.val)),
      inact := s.braid.inact.filter (fun e => decide (e.1 ≠ k.val)),
      prov := s.braid.prov.filter (fun e => decide (e.1 / 4096 ≠ k.val)),
      provC := s.braid.provC.filter (fun e => decide (e.1 ≠ k.val)),
      provA := s.braid.provA.filter (fun e => decide (e.1 ≠ k.val)) } }

/-- The spare that takes logical number `k` in place of `old` (R355): settings kept with EN cleared, the rest fresh. -/
def StripState.replaceBy (old spare : StripState) : StripState :=
  let qc := old.outlet.qc
  { spare with
    owner := old.owner, spare := false, offline := false, nsmode := old.nsmode, ewwrap := old.ewwrap,
    inlet := { Inlet.fresh with src := old.inlet.src, lenM1 := old.inlet.lenM1, base := old.inlet.base },
    outlet := { Outlet.fresh qc with end_ := old.outlet.end_, dropped := satAdd 0 old.outlet.ready.length } }

/-- The strip that a spare has replaced: it stays its owner's, offline, as Table HR-3 counts a tenant's offline strips (log 156, DEDUCED). -/
def StripState.replaced (x : StripState) : StripState :=
  { x with
    spare := false, offline := true, inlet := x.inlet.disable,
    outlet := { x.outlet with ready := [], inOp := [], opened := none, saved := none } }

/-- Strip `k` goes offline and spare `j` takes its logical number (R355). -/
def State.remap (s : State) (k j : Strip) : State :=
  let old := s.strip k
  let spare := s.strip j
  let s := s.clearPlanes k
  let s := s.modStrip k (fun _ => old.replaceBy spare)
  s.modStrip j (fun _ => old.replaced)

/-- A strip with no owner has a parity error and goes offline: a C3 fault that tells no context (R155, Table FL-2). -/
def State.spareOffline (s : State) (k : Strip) : State :=
  let phys := (s.strip k).phys
  let s := s.modStrip k (fun x => { x with perr := satInc x.perr, offline := true, spare := false })
  s.takeFault 0x50 (BitVec.ofNat 8 phys.val) 0xff00 none none

/-- The spares that fail the read at a remap go offline, and that read is behind the node. -/
def State.readSpares (s : State) : State :=
  let s := s.badSpares.foldl (fun s j => s.spareOffline j) s
  { s with braid := { s.braid with spareReads := s.braid.spareReads.drop 1 } }

/-- A strip taken offline by a plane parity error (R155, R355, Table FL-2): remap, DEGRADE to the owner, and a halt of
the owner when its partition has no strip left. -/
def State.stripOffline (s : State) (k : Strip) : State :=
  let old := s.strip k
  let spare := s.pickSpare
  let hit (s : State) : State := s.readSpares.modStrip k (fun x => { x with perr := satInc x.perr })
  match old.owner, spare with
  | none, _ => s.spareOffline k
  | some t, some j =>
    let s := ((hit s).flushNi (quadNi k) t).remap k j
    let s := s.takeFault 0x50 (BitVec.ofNat 8 old.phys.val) (k.val * 256) (some t) none
    s.degrade t 1 k.val
  | some t, none =>
    let s := (((hit s).flushNi (quadNi k) t).modStrip k (fun x =>
      { x with offline := true, inlet := x.inlet.disable, outlet := x.outlet.flush })).clearPlanes k
    let lost := (s.partition t).isEmpty
    let e := s.faultEntry 0x50 (BitVec.ofNat 8 old.phys.val) (0xff00 + if lost then 1 else 0) (some t) none false
    let s := if lost then s.haltSteps t e else s
    let s := s.takeFault 0x50 (BitVec.ofNat 8 old.phys.val) (0xff00 + if lost then 1 else 0) (some t) none
    s.degrade t 2 k.val

/-- Codes of the part of a unit's state in error (Table FL-9, 51h). -/
def partCode : UnitPart → Nat
  | .dataStack => 1
  | .returnStack => 2
  | .storeBuffer => 3
  | .accumulators => 4
  | .saveCopy => 5

/-- A parity error in a unit's state (R356): the unit goes offline, the context whose state held the error is halted,
and every non-idle context is told. The loss of the last unit is C4. Log 17, DEDUCED. -/
def State.unitOffline (s : State) (n : UnitId) (t : Ctx) (part : UnitPart) : State :=
  let s := (s.flushAll (unitNi n)).modUnit n (fun u => { u with offline := true, ctx := none, swapPend := false, buffer := [] })
  let last := allUnits.all (fun m => (s.hunit m).offline)
  let code := if last then 0x64 else 0x51
  let detail := if last then 0 else partCode part * 256 + t.val
  let e := s.faultEntry code (BitVec.ofNat 8 n.val) detail (some t) (some n) false
  let s := (s.haltSteps t e).takeFault code (BitVec.ofNat 8 n.val) detail (some t) (some n)
  s.degradeWhere (fun _ => true) 3 n.val

/-- The contexts that own a window on Pool bank `b` (Table FL-2). -/
def State.onBank (s : State) (b : BankId) (t : Ctx) : Bool :=
  s.tenantExists t && (s.ctx t).wins.toList.any (fun w =>
    w.valid && !w.eddy && decide (w.phys.toNat ≤ b.val * 64 + 63) && decide (b.val * 64 < w.phys.toNat + w.len.toNat))

/-- A Pool bank goes offline (R257): a C3 fault, and DEGRADE to the owners of windows on it. -/
def State.bankOffline (s : State) (b : BankId) : State :=
  let n := Nat.min (s.bank b).unc.toNat 0xffff
  let s := s.modBank b (fun x =>
    { x with state := .offline, downAt := if x.state = .active then s.now else x.downAt })
  let s := s.takeFault 0x53 (BitVec.ofNat 8 b.val) n none none
  s.degradeWhere (fun t => s.onBank b t) 4 b.val

/-- An uncorrectable unit read in bank `b` (R255, R257): counted, recorded, and the bank's sixteenth takes a Pool bank
offline. -/
def State.uncError (s : State) (b : BankId) (unit : Nat) (scrub : Bool) : State :=
  let s := s.modBank b (fun x =>
    { x with unc := satInc x.unc, uadr := BitVec.ofNat 16 unit, uvalid := true, uscrub := scrub })
  let s := s.c1 0x42 (BitVec.ofNat 8 b.val) unit none
  if b.val < 16 ∧ 16 ≤ (s.bank b).unc.toNat ∧ (s.bank b).state ≠ .offline then s.bankOffline b else s

/-- A corrected unit read in bank `b` (R255): counted, and a counted C1 event. -/
def State.corError (s : State) (b : BankId) : State :=
  (s.modBank b (fun x => { x with cor := satInc x.cor })).countFault 0x41 b.val

end Sys2Proof.Machine
end

