-- ==== Sys2Proof/Machine/Packets.lean ====
section
/-! DEFINITION. Request packets from their NI to the bank that performs them, and the responses of the node's own (R229 to R241,
R246 to R250, R255, R265 to R269). A packet crosses the routers in the cycle in which its NI sends it, and waits at its NI or at
its destination (log 116, DESIGN CHOICE). -/

namespace Sys2Proof

/-- The word that a memory request addresses (Table TR-3). -/
def Req.phys (q : Req) : Machine.Phys :=
  if q.dest = 0x0c then { eddy := true, word := q.addr.toNat % 65536 } else { eddy := false, word := q.addr.toNat % 2097152 }

/-- The units of a packet. -/
def Req.units (q : Req) : Nat := q.len.toNat + 1

/-- The last unit of a packet of `n` units. -/
def Req.last (q : Req) (n : Nat) : Machine.Phys := { q.phys with word := 2 * (q.phys.unit + n - 1) }

/-- The unit that the waiting instruction wants. -/
def Req.wanted (q : Req) : Nat :=
  match q.purpose with
  | .load _ a => a.toNat % 2048 / 2 - q.phys.word % 2048 / 2
  | .fetch _ a => a.toNat % 2048 / 2 - q.phys.word % 2048 / 2
  | _ => 0

/-- The SECDED outcome of unit `i` of those that a packet reads (R255). -/
def eccAt (l : List (Nat × Ecc)) (i : Nat) : Ecc := ((l.find? (fun e => decide (e.1 = i))).map (·.2)).getD .clean

def Req.eccOf (q : Req) (i : Nat) : Ecc := eccAt q.ecc i

/-- Port B of an Eddy bank serves QC 0 (R250). -/
def Req.portB (q : Req) : Bool := q.phys.eddy && decide (q.qc = 0)

/-- Two requests of one NI touch a unit in common. -/
def Req.meets (a b : Req) : Bool :=
  decide (a.src = b.src) && decide (a.dest = b.dest)
    && decide (b.phys.unit ≤ a.phys.unit + a.len.toNat) && decide (a.phys.unit ≤ b.phys.unit + b.len.toNat)

/-- A header unit (Table TR-3). -/
def headerUnit (route : BitVec 21) (cmd : BitVec 5) (ten qc : BitVec 4) (src : BitVec 5) (tag : BitVec 6) (len : BitVec 4)
    (addr : BitVec 23) : BitVec 72 := route ++ cmd ++ ten ++ qc ++ src ++ tag ++ len ++ addr

/-- The header of a request under a command and a route. -/
def Req.header (q : Req) (cmd : BitVec 5) (route : BitVec 21) : BitVec 72 :=
  headerUnit route cmd (BitVec.ofNat 4 q.ten.val) q.qc (BitVec.ofNat 5 q.src.val) q.tag q.len q.addr

end Sys2Proof

namespace Sys2Proof.Machine

/-! ### Commands, networks and units (Tables TR-2 to TR-4) -/

def cmdRd : BitVec 5 := 0x00
def cmdWr : BitVec 5 := 0x01
def cmdWrw : BitVec 5 := 0x02
def cmdWrp : BitVec 5 := 0x03
def cmdRegrd : BitVec 5 := 0x04
def cmdRegwr : BitVec 5 := 0x05
def cmdBstr : BitVec 5 := 0x06
def cmdRdi : BitVec 5 := 0x07
def cmdRdata : BitVec 5 := 0x10
def cmdAck : BitVec 5 := 0x11
def cmdErr : BitVec 5 := 0x12
def cmdSnpinv : BitVec 5 := 0x18
def cmdSnpack : BitVec 5 := 0x19

/-- The virtual networks (Table TR-2). -/
inductive Vn | reqT | reqS | rspT | rspS | wd | rd | bs | sn
  deriving DecidableEq, Repr

/-- The VN of a command under a class (Tables TR-2 and TR-4). -/
def vnOf (cmd : BitVec 5) (qc : BitVec 4) : Option Vn :=
  if cmd = cmdRd ∨ cmd = cmdRdi ∨ cmd = cmdRegrd then some (if qc = 0 then .reqS else .reqT)
  else if cmd = cmdWr ∨ cmd = cmdWrw ∨ cmd = cmdWrp ∨ cmd = cmdRegwr then some .wd
  else if cmd = cmdBstr then some .bs
  else if cmd = cmdRdata then some .rd
  else if cmd = cmdAck ∨ cmd = cmdErr then some (if qc = 0 then .rspS else .rspT)
  else if cmd = cmdSnpinv ∨ cmd = cmdSnpack then some .sn
  else none

/-- A unit on a link, without its check bits: its 72 bits and its framing (R230). -/
structure LinkUnit where
  bits  : BitVec 72
  first : Bool
  last  : Bool
  pois  : Bool
  deriving DecidableEq, Repr

/-- The parity bit of the three framing bits. That it is even is the model's choice (log 131, DESIGN CHOICE). -/
def LinkUnit.parity (u : LinkUnit) : Bool := Bool.xor u.first (Bool.xor u.last u.pois)

/-- A packet's units: the header first, and LAST on the final one. -/
def linkUnits (header : BitVec 72) (us : List (BitVec 72 × Bool)) : List LinkUnit :=
  { bits := header, first := true, last := us.isEmpty, pois := false } ::
    us.mapIdx (fun i u => { bits := u.1, first := false, last := decide (i + 1 = us.length), pois := u.2 })

/-- A header leaves a router: hop 0 is gone (R233). -/
def LinkUnit.onward (u : LinkUnit) : LinkUnit :=
  if u.first then { u with bits := (takeHop (u.bits.extractLsb' 51 21)).2 ++ u.bits.extractLsb' 0 51 } else u

/-! ### Damage in transit (R237) -/

/-- A packet part way: the state, and the units that are left of it. -/
structure Way where
  st    : State
  units : List LinkUnit

/-- An error after which a router no longer trusts the packet: in the header, or in the framing of a unit. -/
def hitCuts (h : Hit) : Bool :=
  match h.kind with
  | .single => false
  | .double => decide (h.unit = 0)
  | .framing => true

/-- One error at its router: corrected and counted, a data unit poisoned, or the packet discarded from that unit on (R237,
Table FL-3). Log 119, DEDUCED. -/
def Way.meet (w : Way) (h : Hit) : Way :=
  if w.units.length ≤ h.unit then w
  else if hitCuts h then
    { st := (w.st.modRouter h.router (fun x => { x with unc := satInc x.unc, hdrop := satInc x.hdrop })).countFault 0x43 h.router.val,
      units := w.units.take h.unit }
  else
    match h.kind with
    | .double =>
      { st := w.st.modRouter h.router (fun x => { x with unc := satInc x.unc }),
        units := w.units.mapIdx (fun i u => if i = h.unit then { u with pois := true } else u) }
    | _ => { w with st := (w.st.modRouter h.router (fun x => { x with cor := satInc x.cor })).countFault 0x40 h.router.val }

/-- A packet crosses router `r`: the errors found there, and then what is left of it is forwarded. -/
def Way.cross (d : Damage) (w : Way) (r : RouterId) : Way :=
  let w := (d.filter (fun h => decide (h.router = r))).foldl Way.meet w
  { st := w.st.modRouter r (fun x => { x with units := x.units + BitVec.ofNat 36 w.units.length }), units := w.units.map LinkUnit.onward }

/-- What arrives is a whole packet: its first unit is a header and its final unit has LAST (Edges of 13). -/
def wholePacket (us : List LinkUnit) : Bool :=
  ((us.head?).map (·.first)).getD false && ((us.getLast?).map (·.last)).getD false

/-- A packet travels from NI `n` to NI `e` by the ROUTE of NI n's table (R233, R237): its data units with their poison, or none
where it does not arrive whole. -/
def State.transit (s : State) (n e : NiId) (d : Damage) (us : List LinkUnit) : Option (List (BitVec 72 × Bool)) × State :=
  let x := followRoute 7 niPlace[n].1 (s.routeTo n e).hops
  let w := x.1.foldl (Way.cross d) { st := s, units := us }
  match x.2 with
  | .ejected r l =>
    if wholePacket w.units = true ∧ niAt r l = some e then (some ((w.units.drop 1).map (fun u => (u.bits, u.pois))), w.st)
    else (none, w.st)
  | .misrouted r =>
    if w.units.isEmpty then (none, w.st)
    else (none, (w.st.modRouter r (fun x => { x with mdrop := satInc x.mdrop })).countFault 0x43 r.val)

/-! ### Tags -/

/-- The main die runs. -/
def State.dieOn (s : State) : Bool := decide (s.power.phase = .run) || decide (s.power.phase = .stopping)

/-- The tag's entry, if it is in use. -/
def State.findTag (s : State) (n : NiId) (tag : BitVec 6) : Option Tag :=
  s.net.tags.find? (fun x => decide (x.ni = n) && decide (x.tag = tag))

def State.modTag (s : State) (n : NiId) (tag : BitVec 6) (f : Tag → Tag) : State :=
  { s with net := { s.net with tags := s.net.tags.map (fun (x : Tag) => if x.ni = n ∧ x.tag = tag then f x else x) } }

/-- The tag is free again. -/
def State.freeTag (s : State) (n : NiId) (tag : BitVec 6) : State :=
  { s with net := { s.net with tags := s.net.tags.filter (fun (x : Tag) => !(decide (x.ni = n) && decide (x.tag = tag))) } }

/-- The tag retires (R241). -/
def State.retire (s : State) (n : NiId) (tag : BitVec 6) : State :=
  s.modTag n tag (fun x => { x with retired := true, at_ := s.now })

/-- The timeout of a request from NI `n` to NI `e`, ns: 2^(12 + 2 TMO) CK_N cycles of 2.5 ns (Table TR-5). -/
def State.tmoNs (s : State) (n e : NiId) : Nat := 2 ^ (12 + 2 * (s.routeTo n e).tmo.toNat) * 5 / 2

def State.timeoutOf (s : State) (x : Tag) : Nat := s.tmoNs x.ni x.req.dest

/-- A tag that neither a transaction nor a packet at its NI has. -/
def State.tagOpen (s : State) (n : NiId) (tag : BitVec 6) : Bool :=
  (s.findTag n tag).isNone
    && s.net.waits.all (fun p => decide (p.req.src ≠ n) || decide (p.req.tag ≠ tag) || p.posted || decide (p.stage ≠ .atNi))

/-- The lowest open tag, which an own packet takes (log 131, DESIGN CHOICE). -/
def State.nextTag (s : State) (n : NiId) : Option (BitVec 6) :=
  ((List.range 64).map (BitVec.ofNat 6)).find? (fun t => s.tagOpen n t)

/-! ### Causes of network events -/

/-- A synchronous cause with BDATA. -/
def syncCause (code : BitVec 6) (data : Word) : Raise := { code := code, qual := 0, slot := 0, data := some data, ms := false }

/-- A cause of context `t` at its next boundary: the instruction that waits for the response. -/
def State.syncRaise (s : State) (t : Ctx) (code : BitVec 6) (data : Word) : State :=
  if (s.ctx t).live = true ∧ s.power.phase = .run then
    s.modCtx t (fun c => { c with sync := c.sync ++ [syncCause code data] })
  else s

/-- A network cause at whoever issued the request (R179, R238, Table TR-7, Table FL-4). -/
def State.toRequester (s : State) (p : Purpose) (code : BitVec 6) : State :=
  match p with
  | .load t a => s.syncRaise t code (a.zeroExtend 36)
  | .fetch t a => s.syncRaise t code (a.zeroExtend 36)
  | .register t i => s.syncRaise t code (i.zeroExtend 36)
  | .store t a => s.raiseAsync t code 1 (a.zeroExtend 36)
  | .outlet k =>
    match (s.strip k).owner with
    | some t => s.raiseAsync t code 2 ((s.strip k).outlet.addr.zeroExtend 36)
    | none => s
  | .post r a =>
    match (s.region r).owner with
    | some t => s.raiseAsync t code 3 (a.zeroExtend 36)
    | none => s
  | .system => s

/-! ### Responses of the node's own packets -/

/-- The response to a unit's load, fill or register transaction reaches the unit. -/
def HUnit.takeReply (u : HUnit) (tag : BitVec 6) (r : FillReply) : HUnit :=
  let put (f : Fill) : Fill := if f.tag = tag ∧ f.reply = none then { f with reply := some r } else f
  { u with fills := u.fills.map put, ifill := u.ifill.map put }

/-- The unit gives up what waits under the tag. -/
def HUnit.dropFill (u : HUnit) (tag : BitVec 6) : HUnit :=
  { u with fills := u.fills.filter (fun f => decide (f.tag ≠ tag) || f.reply.isSome),
           ifill := u.ifill.filter (fun f => decide (f.tag ≠ tag) || f.reply.isSome) }

/-- What the sender of an own packet makes of its response (R238). -/
def State.useReply (s : State) (x : Tag) (r : FillReply) : State :=
  match x.req.purpose with
  | .load _ _ => s.modUnit (Fin.ofNat 4 x.ni.val) (fun u => u.takeReply x.tag r)
  | .fetch _ _ => s.modUnit (Fin.ofNat 4 x.ni.val) (fun u => u.takeReply x.tag r)
  | .register _ _ => s.modUnit (Fin.ofNat 4 x.ni.val) (fun u => u.takeReply x.tag r)
  | .post g _ =>
    let s := s.modRegion g (fun y => { y with unack := y.unack - 1 })
    match r with
    | .err c => if c = 1 ∨ c = 3 then s.toRequester x.req.purpose causeNiecc else s
    | .units _ => s
  | p =>
    match r with
    | .err c => if c = 1 ∨ c = 3 then s.toRequester p causeNiecc else s
    | .units _ => s

/-- The units of a response to request `q` (Table TR-4). -/
def responseUnits (q : Req) (route : BitVec 21) : Response → List LinkUnit
  | .rdata us => linkUnits (headerUnit route cmdRdata (BitVec.ofNat 4 q.ten.val) q.qc (BitVec.ofNat 5 q.src.val) q.tag q.len q.addr) us
  | .ack => linkUnits (headerUnit route cmdAck (BitVec.ofNat 4 q.ten.val) q.qc (BitVec.ofNat 5 q.src.val) q.tag 0 0) []
  | .err c => linkUnits (headerUnit route cmdErr (BitVec.ofNat 4 q.ten.val) q.qc (BitVec.ofNat 5 q.src.val) q.tag 0 (c.zeroExtend 23)) []

/-- A response crosses the network to its NI: what arrives of it. -/
def State.comeBack (s : State) (q : Req) (d : Damage) (r : Response) : Option FillReply × State :=
  let y := s.transit q.dest q.src d (responseUnits q (s.routeTo q.dest q.src).hops r)
  match y.1 with
  | none => (none, y.2)
  | some us =>
    match r with
    | .err c => (some (.err c), y.2)
    | _ => (some (.units us), y.2)

/-- The response to an own packet comes back at once (log 24): one lost on its way leaves the tag to its timeout, and one for a retired tag
is discarded and counted as late (R237, R241). -/
def State.deliver (s : State) (x : Tag) (r : Response) : State :=
  match s.comeBack x.req x.back r with
  | (none, s) => s
  | (some f, s) =>
    if x.retired then s.modNi x.ni (fun c => { c with late := satInc c.late })
    else (s.freeTag x.ni x.tag).useReply x f

/-- The destination answers a request: an own one's response goes to its sender, and any other waits for its command (log 83). -/
def State.answer (s : State) (n : NiId) (tag : BitVec 6) (r : Response) : State :=
  match s.findTag n tag with
  | some x =>
    if x.own then s.deliver x r
    else
      let s := s.modTag n tag (fun x => { x with resp := some r, respAt := s.net.answers })
      { s with net := { s.net with answers := s.net.answers + 1 } }
  | none => s

/-! ### Requests at their NI -/

/-- Pool groups and Eddy. -/
def memoryNi (n : NiId) : Bool := (decide (8 ≤ n.val) && decide (n.val ≤ 0x0c))

/-- The NIs that check windows: H0 to H3, OQ0 to OQ3, ME, MW (R235). -/
def tenantNi (n : NiId) : Bool := decide (n.val < 8) || decide (n = 0x0e) || decide (n = 0x0f)

/-- A window of the tenant holds the physical word. -/
def Window.holds (w : Window) (p : Phys) (write : Bool) : Bool :=
  w.valid && decide (w.eddy = p.eddy) && decide (w.phys.toNat ≤ p.block) && decide (p.block < w.phys.toNat + w.len.toNat)
    && (!write || w.writable)

/-- The checks of a memory request at its NI: one bank (R232), and the tenant's windows (R235). -/
def State.niAllows (s : State) (q : Req) (write : Bool) (n : Nat) : Bool :=
  !memoryNi q.dest || (decide (q.phys.bank = (q.last n).bank)
    && (!tenantNi q.src || (s.ctx q.ten).wins.toList.any (fun w => w.holds q.phys write && w.holds (q.last n) write)))

/-- The command writes memory. -/
def cmdWrites (cmd : BitVec 5) : Bool := decide (cmd = cmdWr) || decide (cmd = cmdWrw) || decide (cmd = cmdWrp)

/-- The NI has a write outstanding and unacknowledged to a unit of the read (R249). -/
def State.readHeld (s : State) (q : Req) : Bool :=
  memoryNi q.dest && (s.net.tags.any (fun x => x.write && !x.retired && x.req.meets q))

/-- Whether class `q` has no entry at the word's group (R269). -/
def State.zeroShare (s : State) (q : BitVec 4) (p : Phys) : Bool :=
  match p.group with
  | some g => q != 0 && decide ((s.cls q).recd.share[g] = 0)
  | none => false

/-- The Pool group that a packet goes to. -/
def Packet.group (p : Packet) : Option Group := if memoryNi p.req.dest then p.req.phys.group else none

/-- The class is at its cap (R265): it counts Pool transactions of tenant classes alone (R262). -/
def State.capped (s : State) (p : Packet) : Bool :=
  p.group.isSome && decide (p.req.qc ≠ 0) && decide ((s.cls p.req.qc).recd.cap ≤ (s.cls p.req.qc).out.toNat)

/-- The packets that stand before this one at its NI on its VN: they go first (R236, R265). -/
def State.behind (s : State) (p : Packet) : Bool :=
  (s.net.waits.takeWhile (fun x => decide (x ≠ p))).any (fun x =>
    decide (x.stage = .atNi) && decide (x.req.src = p.req.src) && decide (vnOf x.cmd x.req.qc = vnOf p.cmd p.req.qc))

/-- The NI may inject the packet: in order, below the cap, and a read not before the ACK of a write to its units. -/
def State.mayInject (s : State) (p : Packet) : Bool :=
  !s.behind p && !s.capped p && (cmdWrites p.cmd || !s.readHeld p.req)
    && (p.posted || (s.findTag p.req.src p.req.tag).isNone)

/-! ### Queues of the groups (R246, R269) -/

/-- The packets of class `q` that hold an entry at group `g`. -/
def State.entries (s : State) (q : BitVec 4) (g : Group) : Nat :=
  (s.net.waits.filter (fun p => decide (p.stage = .queued) && decide (p.req.qc = q) && decide (p.group = some g))).length

/-- The classes, in ascending number. -/
def allClasses : List (BitVec 4) := (List.range 16).map (BitVec.ofNat 4)

/-- The entries at `g` that no class has for its share: QC 0 has these (R246, R269; log 150, DEDUCED). -/
def State.spareEntries (s : State) (g : Group) : Nat :=
  32 - ((allClasses.filter (fun q => decide (q ≠ 0) && (s.cls q).recd.owner.isSome)).map (fun q => (s.cls q).recd.share[g])).sum

/-- An entry at the group is open to the class. Eddy's ports have no such limit (log 150, DEDUCED). -/
def State.entryOpen (s : State) (q : BitVec 4) (p : Phys) : Bool :=
  match p.group with
  | some g => decide (s.entries q g < if q = 0 then s.spareEntries g else (s.cls q).recd.share[g])
  | none => true

def Bank.port (b : Bank) (portB : Bool) : BankPort := if portB then b.portB else b.portA
def Bank.setPort (b : Bank) (portB : Bool) (x : BankPort) : Bank := if portB then { b with portB := x } else { b with portA := x }

/-- Nothing waits for the port, or stands before the packet on its way to the group (R236, R247). -/
def State.wayClear (s : State) (q : Req) (cmd : BitVec 5) : Bool :=
  s.net.waits.all (fun p => decide (p.stage = .atNi) || !memoryNi p.req.dest || s.zeroShare p.req.qc p.req.phys
    || (decide (p.req.phys.bank ≠ q.phys.bank ∨ p.req.portB ≠ q.portB)
        && decide (p.stage ≠ .mesh ∨ p.req.src ≠ q.src ∨ p.req.dest ≠ q.dest ∨ vnOf p.cmd p.req.qc ≠ vnOf cmd q.qc)))

/-- The bank can perform the packet in the cycle in which it arrives. -/
def State.servesNow (s : State) (q : Req) (cmd : BitVec 5) : Bool :=
  decide ((s.bank q.phys.bank).state = .active) && decide (((s.bank q.phys.bank).port q.portB).free ≤ s.cycle)
    && s.entryOpen q.qc q.phys && s.wayClear q cmd

/-! ### Service at a bank (R247, R248, R250, R255) -/

/-- The `count` units from the unit of `p` on, as words of that unit. -/
def unitsFrom (p : Phys) (count : Nat) : List Phys := (List.range count).map (fun i => { p with word := 2 * (p.unit + i) })

/-- The SECDED outcome of a read (R255): a corrected unit is written back; a double-bit error stands in the unit. Log 118, DEDUCED. -/
def State.meetEcc (s : State) (p : Phys) : Ecc → State
  | .clean => s
  | .single => (s.corError p.bank).countWrite p 1
  | .double => if s.poisoned p then s else { s with poison := s.poison ++ [p.unitKey] }

/-- What the other port of an Eddy bank does to the unit in the same cycle (R250). -/
def State.touched (s : State) (p : Phys) (portB : Bool) (c : Nat) : Option Touch :=
  if p.eddy then
    ((s.bank p.bank).port !portB).last.find? (fun x => decide (x.cycle = c) && decide (x.unit = p.bankUnit))
  else none

/-- A port touches a unit in cycle `c`: a collision counts in PBCOL. -/
def State.touch (s : State) (p : Phys) (portB : Bool) (c : Nat) (write : Bool) : State :=
  let x : Touch := { cycle := c, unit := p.bankUnit, write := write, old := (s.peekUnit p, s.poisoned p) }
  let met := (s.touched p portB c).isSome
  s.modBank p.bank (fun b =>
    let b := b.setPort portB { (b.port portB) with last := (b.port portB).last ++ [x] }
    if met then { b with col := satInc b.col } else b)

/-- A port begins a packet in cycle `c`, which keeps it for `n` cycles. -/
def State.holdPort (s : State) (p : Phys) (portB : Bool) (c n : Nat) : State :=
  s.modBank p.bank (fun b => b.setPort portB { free := c + n, last := [] })

/-- One unit is read in cycle `c`: with a write of the other port in that cycle, as it stood before (R250). -/
def State.readAt (s : State) (portB : Bool) (p : Phys) (c : Nat) (e : Ecc) : (BitVec 72 × Bool) × State :=
  let other := s.touched p portB c
  let s := ((s.touch p portB c false).countRead p 1).meetEcc p e
  let u := match other with
    | some x => if x.write then x.old else (s.peekUnit p, s.poisoned p)
    | none => (s.peekUnit p, s.poisoned p)
  (u, if u.2 then s.uncError p.bank p.bankUnit false else s)

/-- Units read in consecutive cycles from `c` on. -/
def State.readsAt (portB : Bool) : List (Phys × Ecc) → Nat → State → List (BitVec 72 × Bool) × State
  | [], _, s => ([], s)
  | (p, e) :: rest, c, s =>
    let x := s.readAt portB p c e
    let y := State.readsAt portB rest (c + 1) x.2
    (x.1 :: y.1, y.2)

/-- Port B's write of the unit in the same cycle stands over port A's (R250). -/
def State.overruled (s : State) (p : Phys) (portB : Bool) (c : Nat) : Bool :=
  !portB && ((s.touched p portB c).map (·.write)).getD false

/-- One unit is written whole in cycle `c`. -/
def State.writeAt (s : State) (portB : Bool) (p : Phys) (c : Nat) (u : BitVec 72) : State :=
  let lost := s.overruled p portB c
  let s := (s.touch p portB c true).countWrite p 1
  if lost then s else s.pokeUnit p u

/-- Units written in consecutive cycles from `c` on. -/
def State.writesAt (portB : Bool) : List (Phys × BitVec 72) → Nat → State → State
  | [], _, s => s
  | (p, u) :: rest, c, s => State.writesAt portB rest (c + 1) (s.writeAt portB p c u)

/-! ### Snoops (R239) -/

/-- NI `n` has read from the block with RDI (R239). -/
def State.markFetched (s : State) (blk : Nat) (n : NiId) : State :=
  let old := s.net.snoops
  { s with net := { s.net with snoops := old.filter (fun x => decide (x ≠ (blk, n))) ++ [(blk, n)] } }

/-- The NI has read the packet's blocks with RDI. -/
def State.markBlocks (s : State) (q : Req) : State :=
  (s.markFetched q.phys.blockKey q.src).markFetched (q.last q.units).blockKey q.src

/-- The NIs that have fetched from the block and to which a route marked SNOOP leads. -/
def State.snoopTargets (s : State) (p : Phys) : List (Nat × NiId) :=
  s.net.snoops.filter (fun e => decide (e.1 = p.blockKey) && (s.routeTo p.ni e.2).snoop)

/-- A write of the block sends SNPINV to each NI that has fetched it, and the set is empty again. -/
def State.snoopPosted (s : State) (p : Phys) : State :=
  let hit := s.snoopTargets p
  { s with net := { s.net with
      snoops := s.net.snoops.filter (fun e => decide (e.1 ≠ p.blockKey)), snooping := s.net.snooping ++ hit.map (fun e => (e.1, e.2, false)) } }

/-- The same for a write whose ACK then waits for the SNPACKs. -/
def State.snoopWrite (s : State) (p : Phys) (n : NiId) (f : AckFor) : State :=
  if (s.snoopTargets p).isEmpty && !(s.net.snooping.any (fun e => decide (e.1 = p.blockKey))) then s
  else
    let s := s.snoopPosted p
    { s with net := { s.net with heldAck := s.net.heldAck ++ [(p.blockKey, n, f)] } }

/-- The ACK of a performed write of `n` units: at once, or after the snoops of its blocks. -/
def State.ackWrite (s : State) (q : Req) (n : Nat) : State :=
  let held := s.net.heldAck.length
  let s := s.snoopWrite q.phys q.src (.tag q.tag)
  let s := if (q.last n).blockKey = q.phys.blockKey then s else s.snoopWrite (q.last n) q.src (.tag q.tag)
  if s.net.heldAck.length = held then s.answer q.src q.tag .ack else s

/-- The snoops of a posted write. -/
def State.ackPosted (s : State) (q : Req) (n : Nat) : State :=
  let s := s.snoopPosted q.phys
  if (q.last n).blockKey = q.phys.blockKey then s else s.snoopPosted (q.last n)

/-! ### A packet performed -/

/-- A read from cycle `c` on (R232, R255, R266). -/
def State.performRead (s : State) (p : Packet) (c : Nat) : State :=
  let q := p.req
  let s := s.holdPort q.phys q.portB c q.units
  let x := State.readsAt q.portB ((unitsFrom q.phys q.units).mapIdx (fun i u => (u, q.eccOf i))) c s
  let s := x.2.weirAccess q.phys q.qc c q.units p.since
  let s := if p.cmd = cmdRdi then s.markBlocks q else s
  s.answer q.src q.tag (.rdata x.1)

/-- The 32 words of an outlet send from an odd OUTADDR on (R151; log 132, DEDUCED). -/
def State.pokeWords (s : State) (p : Phys) (us : List (BitVec 72)) : State :=
  (us.zipIdx).foldl (fun s e =>
    (s.poke { p with word := p.word + 2 * e.2 } (e.1.extractLsb' 0 36)).poke { p with word := p.word + 2 * e.2 + 1 } (e.1.extractLsb' 36 36)) s

/-- A write of whole units from cycle `c` on. -/
def State.performWrite (s : State) (p : Packet) (c : Nat) : State :=
  let q := p.req
  let n := p.units.length
  let s := s.holdPort q.phys q.portB c n
  let s :=
    if q.phys.word % 2 = 1 then (s.countWrite q.phys n).pokeWords q.phys p.units
    else State.writesAt q.portB ((unitsFrom q.phys n).zip p.units) c s
  let s := s.weirAccess q.phys q.qc c n p.since
  if p.posted then s.ackPosted q n else s.ackWrite q n

/-- WRW (R248): the unit is read in cycle `c`, and merged and written in the next; an uncorrectable error found by the read writes
nothing. -/
def State.performWord (s : State) (p : Packet) (c : Nat) : State :=
  let q := p.req
  let fix := decide (q.eccOf 0 = .single)      -- a single-bit error is corrected in the merge (Edges of 14)
  let s := if fix then s.corError q.phys.bank else s
  let x := (s.holdPort q.phys q.portB c 1).readAt q.portB q.phys c (if fix then .clean else q.eccOf 0)
  if x.1.2 then (x.2.weirAccess q.phys q.qc c 1 p.since).answer q.src q.tag (.err 1)
  else
    let lost := x.2.overruled q.phys q.portB (c + 1)
    let w := (p.units.getD 0 0).extractLsb' 0 36
    let s := (x.2.touch q.phys q.portB (c + 1) true).modBank q.phys.bank (fun b =>
      { b.setPort q.portB { (b.port q.portB) with free := c + 2 } with
        wru := b.wru + 1, busy := b.busy + 1, rmw := satInc b.rmw })
    let s := (s.weirAccess q.phys q.qc c 2 p.since)
    (if lost then s else s.poke q.phys w).ackWrite q 1

/-- The bank performs the packet from cycle `c` on; a command that Pool and Eddy do not serve draws ERR 02h (R232). -/
def State.perform (s : State) (p : Packet) (c : Nat) : State :=
  if p.cmd = cmdRd ∨ p.cmd = cmdRdi then s.performRead p c
  else if p.cmd = cmdWr ∨ p.cmd = cmdWrp then s.performWrite p c
  else if p.cmd = cmdWrw then s.performWord p c
  else s.answer p.req.src p.req.tag (.err 2)

/-! ### Arrival -/

/-- A packet reaches a bank that sleeps or wakes (R253): the group starts to wake, and PBWAKE counts the wait. -/
def State.touchBank (s : State) (p : Phys) : State :=
  match (s.bank p.bank).state, p.group with
  | .retention, some g => (s.wakeGroup g).modBank p.bank (fun b => { b with waited := satInc b.waited })
  | .waking, _ => s.modBank p.bank (fun b => { b with waited := satInc b.waited })
  | _, _ => s

/-- A packet that has found a zero share counts (R269). -/
def State.countZero (s : State) (q : BitVec 4) : State := s.modCls q (fun c => { c with zsh := satInc c.zsh })

/-- A tenant's packet is queued or held for a group (R273). -/
def State.noteShort (s : State) (p : Packet) : State :=
  match p.group with
  | some g => s.underShort p.req.qc g
  | none => s

/-- A packet stays where it waits from now on. -/
def State.wait (s : State) (p : Packet) (at_ : Stage) : State :=
  { s with net := { s.net with waits := s.net.waits ++ [{ p with stage := at_, since := s.cycle }] } }

/-- The packet no longer waits. -/
def State.unwait (s : State) (p : Packet) : State := { s with net := { s.net with waits := s.net.waits.erase p } }

/-- An outstanding Pool transaction of a tenant class begins to wait, or ends its wait (R265). -/
def State.outUp (s : State) (p : Packet) : State :=
  if p.group.isSome ∧ p.req.qc ≠ 0 then s.modCls p.req.qc (fun c => { c with out := satInc c.out }) else s
def State.outDown (s : State) (p : Packet) : State :=
  if p.group.isSome ∧ p.req.qc ≠ 0 then s.modCls p.req.qc (fun c => { c with out := c.out - 1 }) else s

/-- A write that its destination refuses when its LAST unit has arrived (R232, R238; an odd ADDR by log 84): its ERR code. -/
def Packet.refusal (p : Packet) : Option Byte :=
  if p.cmd = cmdWr ∨ p.cmd = cmdWrp then
    if p.bad ∨ p.units.length ≠ p.req.units then some 1
    else if p.req.phys.word % 2 = 1 ∧ p.own = false then some 2 else none
  else if p.cmd = cmdWrw then if p.bad ∨ p.units = [] then some 1 else none
  else if p.cmd = cmdRd ∨ p.cmd = cmdRdi then none
  else some 2

/-- An ERR for a packet, unless it is posted. -/
def State.refusePacket (s : State) (p : Packet) (code : Byte) : State :=
  if p.posted then s else s.answer p.req.src p.req.tag (.err code)

/-- A packet arrives at Pool or Eddy: it is refused (R232, R257), finds no entry (R246, R269), waits for its bank, or is performed
at once. -/
def State.land (s : State) (p : Packet) : State :=
  let q := p.req
  if q.phys.ni ≠ q.dest then s.refusePacket p 2
  else if s.zeroShare q.qc q.phys then (((s.countZero q.qc).noteShort p).outUp p).wait p .mesh
  else if (s.bank q.phys.bank).state = .offline then s.refusePacket p 3
  else
    match p.refusal with
    | some c => s.refusePacket p c
    | none =>
      if s.servesNow q p.cmd then s.perform { p with since := s.cycle } s.cycle
      else if s.entryOpen q.qc q.phys && s.wayClear q p.cmd then (((s.touchBank q.phys).noteShort p).outUp p).wait p .queued
      else ((s.noteShort p).outUp p).wait p .mesh

/-! ### Sending -/

/-- The tag of a request is taken (R229, R241). -/
def State.takeTag (s : State) (p : Packet) : State :=
  if p.posted then s
  else
    let q := p.req
    let x : Tag := { ni := q.src, tag := q.tag, req := q, write := cmdWrites p.cmd, own := p.own, retired := false, at_ := s.now,
                     resp := none, respAt := 0, back := p.back }
    { s with net := { s.net with tags := s.net.tags ++ [x] } }

/-- A send leaves the outlet quad: OUTSENT counts it. -/
def State.countSent (s : State) (p : Packet) : State :=
  match p.own, p.req.purpose with
  | true, .outlet k => s.modOutlet k (fun o => { o with sent := o.sent + 1 })
  | _, _ => s

/-- The packet leaves its NI, with its tag, and crosses the routers (R233, R237): what arrives of it. -/
def State.inject (s : State) (p : Packet) : Option Packet × State :=
  let q := p.req
  let us := linkUnits (q.header p.cmd (s.routeTo q.src q.dest).hops) (p.units.map (fun u => (u, p.bad)))
  let x := ((s.takeTag p).countSent p).transit q.src q.dest q.damage us
  match x.1 with
  | some us => (some { p with units := us.map (·.1), bad := us.any (·.2) }, x.2)
  | none => (none, x.2)

/-- The packet is sent to Pool or Eddy. -/
def State.launch (s : State) (p : Packet) : State :=
  match s.inject p with
  | (some p, s) => s.land p
  | (none, s) => s

/-- A packet formed at its NI: it leaves at once, or waits there (R265). -/
def State.offer (s : State) (p : Packet) : State :=
  if s.mayInject p then s.launch p else ((s.noteShort p).wait p .atNi)

/-- What befalls the next packet of the node's own parts (model's own, log 131, DESIGN CHOICE). -/
def State.takeFate (s : State) : Fate × State :=
  match s.net.fates with
  | f :: rest => (f, { s with net := { s.net with fates := rest } })
  | [] => ({ damage := [], back := [], ecc := [] }, s)

/-- A packet of a part of the node itself, to the place `p`. -/
def ownPacket (n : NiId) (cmd : BitVec 5) (t : Ctx) (qc : BitVec 4) (tag : BitVec 6) (p : Phys) (len : Nat) (why : Purpose)
    (units : List (BitVec 72)) (f : Fate) : Packet :=
  { cmd := cmd,
    req := { src := n, dest := p.ni, ten := t, qc := qc, tag := tag, len := BitVec.ofNat 4 len, addr := BitVec.ofNat 23 p.word,
             purpose := why, damage := f.damage, ecc := f.ecc },
    units := units, bad := false, own := true, posted := decide (cmd = cmdWrp), back := f.back, stage := .atNi, since := 0 }

/-- A part of the node sends a packet of its own. -/
def State.sendRequest (s : State) (n : NiId) (cmd : BitVec 5) (t : Ctx) (qc : BitVec 4) (tag : BitVec 6) (p : Phys) (len : Nat)
    (why : Purpose) (units : List (BitVec 72)) : State :=
  let x := s.takeFate
  x.2.offer (ownPacket n cmd t qc tag p len why units x.1)

end Sys2Proof.Machine
end

