-- ==== Sys2Proof/Machine/Memory.lean ====
section
/-! DEFINITION. A unit's accesses to memory: loads, stores through the store buffer, instruction fetch (R173, R179,
R180, R196, R239, R248 to R253). An access that its packet does not serve at once stalls its instruction until the response is there
(log 24, DESIGN CHOICE). -/

namespace Sys2Proof.Machine

/-- The outcome of a piece of an instruction: done with a value, a cause with the state that stands, or a stall. -/
inductive Res (α : Type) where
  | ok (s : State) (v : α)
  | raise (s : State) (r : Raise)
  | stall (s : State)

/-- Sequence two pieces. -/
def Res.bind {α β : Type} (x : Res α) (f : State → α → Res β) : Res β :=
  match x with
  | .ok s v => f s v
  | .raise s r => .raise s r
  | .stall s => .stall s

def causeUnd : BitVec 6 := 0x01
def causePairdep : BitVec 6 := 0x02
def causeDsunf : BitVec 6 := 0x03
def causeDsovf : BitVec 6 := 0x04
def causeRsunf : BitVec 6 := 0x05
def causeRsovf : BitVec 6 := 0x06
def causeLoopx : BitVec 6 := 0x07
def causeBankx : BitVec 6 := 0x08
def causeHrsx : BitVec 6 := 0x0c
def causeHrsp : BitVec 6 := 0x0d
def causePlanex : BitVec 6 := 0x0e
def causeSlent : BitVec 6 := 0x0f

/-! ### One request of a unit -/

/-- A fill belongs to the instruction that context `t` issues now. -/
def State.fillIs (s : State) (t : Ctx) (f : Fill) : Bool :=
  let c := s.ctx t
  decide (f.ctx = t) && decide (f.pc = c.pc) && decide (f.time = c.time) && decide (f.cnt = c.arch.cnt)

/-- The access of the instruction that context `t` issues to the address, if it is under way or has its response. -/
def State.fillOf (s : State) (t : Ctx) (fetch : Bool) (addr : BitVec 18) : Option Fill :=
  let u := s.hunit (s.ctx t).unit
  (if fetch then u.ifill.toList else u.fills).find? (fun f => s.fillIs t f && decide (f.addr = addr))

/-- An access begins; what waits for an earlier instruction is given up, and its response will be discarded. -/
def State.addFill (s : State) (t : Ctx) (fetch : Bool) (addr : BitVec 18) (block : Nat) (tag : BitVec 6) : State :=
  let c := s.ctx t
  let f : Fill := { ctx := t, pc := c.pc, time := c.time, cnt := c.arch.cnt, addr := addr, block := block, tag := tag, keep := true,
                    reply := none }
  s.modUnit c.unit (fun u =>
    if fetch then { u with ifill := some f } else { u with fills := u.fills.filter (fun x => s.fillIs t x) ++ [f] })

/-- The response to a unit's read, of which the instruction wants unit `i`: NIECC for an ERR or a poisoned unit (R238). The flag says that
the line may be kept (R239). -/
def State.asked (s : State) (t : Ctx) (fetch : Bool) (addr : BitVec 18) (i : Nat) : Res (List (BitVec 72 × Bool) × Bool) :=
  match s.fillOf t fetch addr with
  | some f =>
    match f.reply with
    | some (.units us) =>
      if (us.getD i (0, false)).2 then .raise s (syncCause causeNiecc (addr.zeroExtend 36)) else .ok s (us, f.keep)
    | some (.err _) => .raise s (syncCause causeNiecc (addr.zeroExtend 36))
    | none => .stall s
  | none => .stall s

/-- Context `t` reads `count` units from the unit of `p` for the sake of the word `want`: the packet goes out once, and the
instruction stalls until its response has come. -/
def State.ask (s : State) (t : Ctx) (fetch : Bool) (p want : Phys) (count : Nat) (addr : BitVec 18) :
    Res (List (BitVec 72 × Bool) × Bool) :=
  let n := (s.ctx t).unit
  let i := want.unit - p.unit
  match s.fillOf t fetch addr, s.nextTag (unitNi n) with
  | some _, _ => s.asked t fetch addr i
  | none, none => .stall s
  | none, some tag =>
    let s := (s.addFill t fetch addr p.blockKey tag).sendRequest (unitNi n) (if fetch then cmdRdi else cmdRd) t s.weir.labels[t] tag p (count - 1)
      (if fetch then .fetch t addr else .load t addr) []
    s.asked t fetch addr i

/-- A word of a unit: the even word is low (R230). -/
def unitWord (u : BitVec 72) (p : Phys) : Word := if p.word % 2 = 1 then u.extractLsb' 36 36 else u.extractLsb' 0 36

/-! ### The store buffer -/

/-- A request is a store of context `t`. -/
def Purpose.isStore (t : Ctx) : Purpose → Bool
  | .store c _ => decide (c = t)
  | _ => false

/-- Stores of context `t` that have left a store buffer and are not acknowledged; one that has timed out counts as acknowledged
(Table TR-7). -/
def State.unacked (s : State) (t : Ctx) : Bool :=
  s.net.tags.any (fun x => Purpose.isStore t x.req.purpose && !x.retired)
    || s.net.waits.any (fun p => Purpose.isStore t p.req.purpose && decide (p.stage = .atNi))

/-- Drain one store of context `e.ctx` through unit `n` under the tag (R180, R238, R248, R260, R269). -/
def State.drainEntry (s : State) (n : UnitId) (tag : BitVec 6) (e : StoreEntry) : State :=
  match s.translate e.ctx e.addr true with
  | none => s
  | some p => s.sendRequest (unitNi n) cmdWrw e.ctx e.qc tag p 0 (.store e.ctx e.addr) [e.val.zeroExtend 72]

/-- Whether the store must wait: it is speculative, or a release to a mailbox with an older store unacknowledged (R251). -/
def State.drainHeld (s : State) (e : StoreEntry) : Bool :=
  e.spec || (match s.translate e.ctx e.addr true with
    | some p => (mailboxOf p).isSome && s.unacked e.ctx
    | none => false)

/-- Drain the oldest store of unit `n`, if it may go. -/
def State.drainOne (s : State) (n : UnitId) : State :=
  match (s.hunit n).buffer, s.nextTag (unitNi n) with
  | e :: rest, some tag => if s.drainHeld e then s else (s.modUnit n (fun u => { u with buffer := rest })).drainEntry n tag e
  | _, _ => s

/-- Drain up to `k` stores of unit `n`. -/
def State.drainUpTo (s : State) (n : UnitId) : Nat → State
  | 0 => s
  | k + 1 => (s.drainOne n).drainUpTo n k

/-- Drain the eight entries a buffer can hold. -/
def State.drainUnit (s : State) (n : UnitId) : State := s.drainUpTo n 8

/-! ### Loads and stores -/

/-- The youngest buffered store of context `t` to the address (R180). -/
def youngest (t : Ctx) (addr : BitVec 18) (b : List StoreEntry) : Option Word :=
  (b.reverse.find? (fun e => decide (e.ctx = t) && decide (e.addr = addr))).map (·.val)

/-- The label that a request of context `t` carries (R260). -/
def State.label (s : State) (t : Ctx) : BitVec 4 := s.weir.labels[t]

/-- X RAM for bank 00h, Y RAM for bank 01h (Table HW-2). -/
def Context.ram (c : Context) (bank : Nat) : Mem Word := if bank = 0 then c.xram else c.yram

/-- Write X or Y RAM. -/
def Context.setRam (c : Context) (bank : Nat) (k : Nat) (v : Word) : Context :=
  if bank = 0 then { c with xram := Mem.set 0 c.xram k v } else { c with yram := Mem.set 0 c.yram k v }

/-- The loaded word, of a unit's context `t` (R179, R180). -/
def State.load (s : State) (t : Ctx) (addr : BitVec 18) : Res Word :=
  let c := s.ctx t
  let n := c.unit
  let bank := addr.toNat / 2048
  let data : Word := addr.zeroExtend 36
  if bank < 2 then
    .ok s ((youngest t addr (s.hunit n).buffer).getD (Mem.get 0 (c.ram bank) (addr.toNat % 2048)))
  else if bank < 0x10 then .raise s (syncCause causeBankx data)
  else
    match s.translate t addr false with
    | none => .raise s (syncCause causeNiwin data)
    | some p =>
      match youngest t addr (s.hunit n).buffer with
      | some v => .ok s v
      | none =>
        (s.ask t false p p 1 addr).bind (fun s r => .ok s (unitWord (r.1.getD 0 (0, false)).1 p))

/-- A store of context `t` (R180, R201): speculative while it speculates; a full buffer stalls it. -/
def State.store (s : State) (t : Ctx) (addr : BitVec 18) (v : Word) : Res Unit :=
  let c := s.ctx t
  let n := c.unit
  let bank := addr.toNat / 2048
  let data : Word := addr.zeroExtend 36
  let push (s : State) : Res Unit :=
    if 8 ≤ (s.hunit n).buffer.length then .stall s
    else
      let e : StoreEntry := { ctx := t, addr := addr, val := v, spec := c.spec.isSome, qc := s.label t }
      .ok (s.modUnit n (fun u => { u with buffer := u.buffer ++ [e] })) ()
  if bank < 2 then
    if c.spec.isSome then push s
    else if 8 ≤ (s.hunit n).buffer.length then .stall s
    else .ok (s.modCtx t (fun c => c.setRam bank (addr.toNat % 2048) v)) ()
  else if bank < 0x10 then .raise s (syncCause causeBankx data)
  else
    match s.translate t addr true with
    | none => .raise s (syncCause causeNiwin data)
    | some _ => push s

/-- Speculative stores of X and Y RAM and of windows become older ones (R203): those of X and Y RAM are written. -/
def State.commitStores (s : State) (t : Ctx) : State :=
  let n := (s.ctx t).unit
  let mine (e : StoreEntry) : Bool := decide (e.ctx = t) && e.spec
  let ram := (s.hunit n).buffer.filter (fun e => mine e && decide (e.addr.toNat < 4096))
  let s := ram.foldl (fun s e => s.modCtx t (fun c => c.setRam (e.addr.toNat / 2048) (e.addr.toNat % 2048) e.val)) s
  s.modUnit n (fun u => { u with buffer :=
    (u.buffer.filter (fun e => !(mine e && decide (e.addr.toNat < 4096)))).map (fun e =>
      if mine e then { e with spec := false } else e) })

/-! ### Fetch -/

/-- The fetch of the instruction at `pc` by context `t` on its unit (R173, Table PB-1, R239). -/
def State.fetch (s : State) (t : Ctx) (pc : BitVec 19) : Res Unit :=
  let n := (s.ctx t).unit
  let addr : BitVec 18 := pc.extractLsb' 1 18
  let data : Word := addr.zeroExtend 36
  if addr.toNat / 2048 < 0x10 then .raise s (syncCause causeBankx data)
  else
    match s.translate t addr false with
    | none => .raise s (syncCause causeNiwin data)
    | some p =>
      if ((s.hunit n).icache.contains p.line) = true then .ok s ()
      else
        let s := if (s.fillOf t true addr).isSome then s else s.modUnit n (fun u => { u with icm := u.icm + 1 })
        let first : Phys := { p with word := 8 * (p.word / 8) }
        (s.ask t true first p 4 addr).bind (fun s r =>
          .ok (if r.2 && r.1.all (fun u => !u.2) then s.modUnit n (fun u => { u with icache := p.line :: u.icache }) else s) ())

end Sys2Proof.Machine
end

