-- ==== Sys2Proof/Machine/Operands.lean ====
section
/-! DEFINITION. Operand forms: instruction words (Table HW-1), branch targets (R182), the short-op table as R175 uses
it (Table HW-4), index words (R193) and microword fields (Table SL-2 is in Sluice.lean). -/

namespace Sys2Proof.Machine

/-- The 18-bit word of a long op (Table HW-1), as BDATA holds it. -/
def longWord (op : Nat) (field : BitVec 11) : Word := BitVec.ofNat 36 (op * 2048 + field.toNat)

/-- The 18-bit word of a pair (Table HW-1). Log 15, DEDUCED. -/
def pairWord (a b : BitVec 8) (bar : Bool) : Word :=
  BitVec.ofNat 36 (0x20000 + a.toNat * 512 + b.toNat * 2 + if bar then 1 else 0)

/-- A field of 11 bits, sign-extended to a word. -/
def signed11 (k : BitVec 11) : Word := k.signExtend 36

/-- The target of BR, BZ, BNZ and CALL at `p` (R182). -/
def branchTarget (p : BitVec 19) (o : BitVec 11) : BitVec 19 := p + 2 + o.signExtend 19

/-- The target of BRC at `p`: offset of 10 bits (R182). -/
def brcTarget (p : BitVec 19) (field : BitVec 11) : BitVec 19 := p + 1 + (field.extractLsb' 0 10).signExtend 19

/-- The short address of LD and ST under BK (R179). -/
def bankAddr (bk : BitVec 7) (a : BitVec 11) : BitVec 18 := bk ++ a

/-- An address as a word carries it: bits [17:0] (R179). -/
def wordAddr (a : Word) : BitVec 18 := a.extractLsb' 0 18

/-- The register index of an index word: bits [12:0] (R193). -/
def indexOf (i : Word) : BitVec 13 := i.extractLsb' 0 13

/-- What R175 and R177 take from Table HW-4 of a short op: how many data-stack items it takes and leaves (PICK: the
count n alone, see `shortNeeds`), whether it is a memory op, whether it uses the return stack. -/
structure ShortInfo where
  takes  : Nat
  leaves : Nat
  mem    : Bool
  ret    : Bool
  deriving DecidableEq, Repr

/-- The resources of Table HW-4's "Writes" column, and the ones that are read beside them. -/
inductive Resource | memory | strings | op (k : Fin 8) | accs | pointers | blockExp | rounding
  deriving DecidableEq, Repr

/-- A row of Table HW-4 that touches the data stack alone. -/
def onStack (t l : Nat) : Option ShortInfo := some { takes := t, leaves := l, mem := false, ret := false }
/-- A row of class M. -/
def onMem (t l : Nat) : Option ShortInfo := some { takes := t, leaves := l, mem := true, ret := false }
/-- A row of class Return. -/
def onRet (t l : Nat) : Option ShortInfo := some { takes := t, leaves := l, mem := false, ret := true }

/-- Table HW-4 by code: none for a code that is not listed (R186). -/
def shortInfo (c : Nat) : Option ShortInfo :=
  match c with
  | 0x00 => onStack 0 0 | 0x01 => onStack 1 2 | 0x02 => onStack 1 0 | 0x03 => onStack 2 2
  | 0x04 => onStack 2 3 | 0x05 => onStack 3 3 | 0x06 => onStack 2 1 | 0x07 => onStack 2 3
  | 0x08 => onStack 1 1 | 0x09 => onRet 1 0 | 0x0a => onRet 0 1 | 0x0b => onRet 0 1 | 0x0c => onRet 0 0
  | 0x10 => onStack 2 1 | 0x11 => onStack 2 1 | 0x12 => onStack 1 1 | 0x13 => onStack 1 1 | 0x14 => onStack 1 1
  | 0x15 => onStack 2 1 | 0x16 => onStack 2 1 | 0x17 => onStack 2 1 | 0x18 => onStack 2 1 | 0x19 => onStack 1 1
  | 0x20 => onStack 2 1 | 0x21 => onStack 2 1 | 0x22 => onStack 2 1 | 0x23 => onStack 1 1
  | 0x24 => onStack 2 1 | 0x25 => onStack 2 1 | 0x26 => onStack 2 1 | 0x27 => onStack 2 1
  | 0x28 => onStack 1 1 | 0x29 => onStack 1 1 | 0x2a => onStack 1 1
  | 0x30 => onStack 2 1 | 0x31 => onStack 2 1 | 0x32 => onStack 2 1 | 0x33 => onStack 1 1 | 0x34 => onStack 1 1
  | 0x38 => onStack 2 1 | 0x39 => onStack 1 1 | 0x3a => onStack 2 1
  | 0x40 => onMem 1 1 | 0x41 => onMem 2 0 | 0x42 => onMem 1 2 | 0x43 => onMem 2 1
  | 0x44 => onMem 0 0 | 0x45 => onMem 1 1 | 0x46 => onMem 0 0 | 0x47 => onMem 1 2
  | 0x48 => onStack 1 0 | 0x49 => onStack 1 0 | 0x4a => onStack 1 0 | 0x4b => onStack 1 0
  | 0x4c => onStack 1 0 | 0x4d => onStack 1 0 | 0x4e => onStack 1 0 | 0x4f => onStack 1 0
  | 0x50 => onStack 0 0 | 0x51 => onStack 0 0 | 0x52 => onStack 0 0 | 0x53 => onStack 0 1 | 0x54 => onStack 0 1
  | 0x55 => onStack 1 0 | 0x56 => onStack 1 0 | 0x57 => onStack 1 1 | 0x58 => onStack 1 1
  | 0x59 => onStack 1 0 | 0x5a => onStack 0 1 | 0x5b => onStack 1 0
  | _ => none

/-- What a short op writes (Table HW-4). -/
def shortWrites (c : Nat) : List Resource :=
  if c = 0x41 ∨ c = 0x43 then [.memory]
  else if 0x44 ≤ c ∧ c ≤ 0x47 then [.memory, .strings]
  else if 0x48 ≤ c ∧ c ≤ 0x4f then [.op (Fin.ofNat 8 (c - 0x48))]
  else if c = 0x50 ∨ c = 0x51 then [.accs, .pointers]
  else if c = 0x52 ∨ c = 0x55 ∨ c = 0x56 then [.accs]
  else if c = 0x59 ∨ c = 0x5a then [.blockExp]
  else if c = 0x5b then [.rounding]
  else []

/-- What a short op reads among the same resources: memory for loads, string ops, MAC and CMAC (R218), the
accumulators and pointers for the Riffle ops, the rounding select for RDRE and RDIM (log 25, DEDUCED). -/
def shortReads (c : Nat) : List Resource :=
  if c = 0x40 ∨ c = 0x42 then [.memory]
  else if 0x44 ≤ c ∧ c ≤ 0x47 then [.memory, .strings]
  else if c = 0x50 ∨ c = 0x51 then [.accs, .pointers, .memory]
  else if c = 0x53 ∨ c = 0x54 then [.accs, .rounding]
  else if c = 0x59 ∨ c = 0x5a then [.blockExp]
  else []

/-- The three conditions under which a pair of listed codes is illegal (R175). -/
def pairDep (a b : Nat) : Bool :=
  match shortInfo a, shortInfo b with
  | some ia, some ib =>
    (decide (0 < ia.leaves) && decide (0 < ib.takes))
    || (shortWrites a).any (fun r => (shortWrites b ++ shortReads b).contains r)
    || (ia.mem && ib.mem) || (ia.ret && ib.ret)
  | _, _ => false

end Sys2Proof.Machine
end

