-- ==== Sys2Proof/Machine/Flags.lean ====
section
/-! DEFINITION. The arithmetic of Headwater and the Riffle and the flags it leaves: shifts and BREV (R187), CRC (R188),
accumulators (R219 to R223, R226), and BCAUSE (Table PB-5). -/

namespace Sys2Proof.Machine

/-! ### Words -/

/-- SHL, SHR, ASR and ROL by n[5:0] (R187). -/
def shiftCount (n : Word) : Nat := n.toNat % 64
def shlWord (x n : Word) : Word := if shiftCount n < 36 then x <<< shiftCount n else 0
def shrWord (x n : Word) : Word := if shiftCount n < 36 then x >>> shiftCount n else 0
def asrWord (x n : Word) : Word := x.sshiftRight (Nat.min (shiftCount n) 36)
def rolWord (x n : Word) : Word := x.rotateLeft (shiftCount n % 36)

/-- BREV: the low bits reversed over the width, at most 36 (R187). -/
def brevWord (x n : Word) : Word :=
  let w := Nat.min (shiftCount n) 36
  (List.range w).foldl (fun (a : Word) i => if x.getLsbD i then a ||| (1#36 <<< (w - 1 - i)) else a) 0

/-- The XOR of all bits (PAR). -/
def parWord (x : Word) : Word := (List.range 36).foldl (fun (a : Word) i => if x.getLsbD i then a ^^^ 1 else a) 0

/-- The exact product of the low 18 bits, signed or unsigned (MUL, MULU). -/
def mulWord (a b : Word) : Word := (a.extractLsb' 0 18).signExtend 36 * (b.extractLsb' 0 18).signExtend 36
def muluWord (a b : Word) : Word := (a.extractLsb' 0 18).zeroExtend 36 * (b.extractLsb' 0 18).zeroExtend 36

/-- MIN, MAX and ABS, signed; the most negative word has no positive counterpart and wraps (R186). -/
def minWord (a b : Word) : Word := if a.slt b then a else b
def maxWord (a b : Word) : Word := if a.slt b then b else a
def absWord (x : Word) : Word := if x.slt 0 then -x else x

/-! ### CRC (R188) -/

/-- P reversed over `w` bits. -/
def reverseBits (p w : Nat) : Nat := (List.range w).foldl (fun a i => if p.testBit i then a + 2 ^ (w - 1 - i) else a) 0

/-- One bit step in normal and in reflected form. -/
def crcBit (w p c : Nat) : Nat := if c.testBit (w - 1) then ((2 * c) ^^^ p) % 2 ^ w else 2 * c % 2 ^ w
def crcBitRefl (q c : Nat) : Nat := if c.testBit 0 then (c / 2) ^^^ q else c / 2

/-- `k` bit steps. -/
def crcSteps (f : Nat → Nat) : Nat → Nat → Nat
  | 0, c => c
  | k + 1, c => crcSteps f k (f c)

/-- One byte step of the CRC of width `w`, polynomial `poly`, over value `c` and byte `b`. -/
def crcByte (w poly : Nat) (refl : Bool) (c b : Nat) : Nat :=
  let p := poly % 2 ^ w
  let c := c % 2 ^ w
  if refl then crcSteps (crcBitRefl (reverseBits p w)) 8 (c ^^^ b)
  else crcSteps (crcBit w p) 8 (c ^^^ (b * 2 ^ (w - 8)))

/-- CRCC.W lies in 8 to 32 (R188). -/
def Arch.crcOk (a : Arch) : Bool := decide (8 ≤ a.crcw.toNat) && decide (a.crcw.toNat ≤ 32)

/-- The CRC op: c and b as words. -/
def crcWord (a : Arch) (c b : Word) : Word :=
  BitVec.ofNat 36 (crcByte a.crcw.toNat a.crcp.toNat a.crcRefl c.toNat (b.toNat % 256))

/-- CRCS over one word: four bytes, low first (R189). -/
def crcsWord (a : Arch) (m : Word) : BitVec 32 :=
  let step (c i : Nat) : Nat := crcByte a.crcw.toNat a.crcp.toNat a.crcRefl c (m.toNat / 2 ^ (8 * i) % 256)
  BitVec.ofNat 32 (step (step (step (step a.crca.toNat 0) 1) 2) 3)

/-! ### Riffle -/

/-- Fit an exact value to `w` bits: the value and whether it did not fit (R221, R223). -/
def fitTo (w : Nat) (sat : Bool) (v : Int) : Int × Bool :=
  let lo : Int := -(2 ^ (w - 1))
  let hi : Int := 2 ^ (w - 1) - 1
  if v < lo then (if sat then lo else (BitVec.ofInt w v).toInt, true)
  else if hi < v then (if sat then hi else (BitVec.ofInt w v).toInt, true)
  else (v, false)

/-- The high and low signed halves of an operand word (R218). -/
def hiHalf (x : Word) : Int := (x.extractLsb' 18 18).toInt
def loHalf (x : Word) : Int := (x.extractLsb' 0 18).toInt

/-- A pointer's move by its step register (R219). -/
def movePointer (p : BitVec 11) (stepReg : BitVec 33) : BitVec 11 :=
  let d : Int := (stepReg.extractLsb' 0 11).toInt
  let l0 : Nat := (stepReg.extractLsb' 11 11).toNat
  let l : Int := if l0 = 0 then 2048 else l0
  let b : Int := (stepReg.extractLsb' 22 11).toNat
  let q : Int := p.toNat
  if b ≤ q ∧ q ≤ b + l - 1 then BitVec.ofInt 11 (b + (q - b + d) % l) else BitVec.ofInt 11 ((q + d) % 2048)

/-- Set both accumulators to exact sums (R221). -/
def Arch.setAccs (a : Arch) (re im : Int) : Arch :=
  let r := fitTo 40 a.sat re
  let i := fitTo 40 a.sat im
  { a with acr := BitVec.ofInt 40 r.1, aci := BitVec.ofInt 40 i.1, ova := a.ova || r.2 || i.2 }

/-- MAC and CMAC on operand words (R219, R220). -/
def Arch.macc (a : Arch) (complex : Bool) (x y : Word) : Arch :=
  let sg : Int := if a.neg then -1 else 1
  let yl : Int := if complex && a.conj then -(loHalf y) else loHalf y
  let re : Int := if complex then hiHalf x * hiHalf y - loHalf x * yl else hiHalf x * hiHalf y
  let im : Int := if complex then hiHalf x * yl + loHalf x * hiHalf y else loHalf x * yl
  let moves := !a.alt || a.neg
  let a' := a.setAccs (a.acr.toInt + sg * re) (a.aci.toInt + sg * im)
  { a' with
    xp := if moves then movePointer a.xp a.xstep else a.xp,
    yp := if moves then movePointer a.yp a.ystep else a.yp,
    neg := if a.alt then !a.neg else a.neg }

/-- An accumulator shifted right by RSH and rounded by RCONV (R223). -/
def roundAcc (rconv : Bool) (k : Nat) (v : Int) : Int :=
  if k = 0 then v
  else if rconv then
    let q := v / 2 ^ k
    let r := v - q * 2 ^ k
    if 2 ^ (k - 1) < r then q + 1 else if r = 2 ^ (k - 1) then q + q % 2 else q
  else (v + 2 ^ (k - 1)) / 2 ^ k

/-- What RDRE or RDIM pushes of an accumulator, and whether ROV is set (R223). -/
def Arch.readAcc (a : Arch) (acc : BitVec 40) : Word × Bool :=
  let w := if a.out18 then 18 else 36
  let r := fitTo w a.sat (roundAcc a.rconv a.rsh acc.toInt)
  (BitVec.ofInt 36 r.1, r.2)

/-- What WRRE or WRIM sets (R222): the value, and whether OVA is set. -/
def Arch.writeAcc (a : Arch) (x : Word) : BitVec 40 × Bool :=
  let r := fitTo 40 a.sat (x.toInt * 2 ^ a.wsh)
  (BitVec.ofInt 40 r.1, r.2)

/-- Leading bits equal to bit 35, minus one (R226). -/
def expWord (x : Word) : Nat :=
  let rec go : Nat → Nat → Nat
    | 0, n => n
    | i + 1, n => if x.getLsbD i = x.getLsbD 35 then go i (n + 1) else n
  go 35 0

/-! ### BCAUSE -/

/-- The flags of a cause taken (Table PB-5). -/
structure CauseFlags where
  ds  : Bool
  ms  : Bool
  le  : Bool
  sp  : Bool
  as_ : Bool
  deriving DecidableEq, Repr

/-- BCAUSE without PR, which shows the pending causes as they stand (R206, R209; log 26, DEDUCED). -/
def bcauseWord (r : Raise) (f : CauseFlags) : Word :=
  BitVec.ofNat 36 (r.code.toNat + (if f.ds then 0x40 else 0) + (if f.ms then 0x80 else 0) + (if f.le then 0x100 else 0)
    + (if f.sp then 0x200 else 0) + (if f.as_ then 0x800 else 0) + r.qual.toNat * 0x1000)

end Sys2Proof.Machine
end

