-- ==== Sys2Proof/Machine/Issue.lean ====
section
/-! DEFINITION. The issue of one instruction by a context at its program counter: when it may issue, delay slots (R182,
R199), loop ends (R192), mode shadows (R105, R211), speculation (R200 to R205), the Bell (R206 to R210) and the halt
on a cause inside a handler (R209). -/

namespace Sys2Proof.Machine

/-! ### The Bell -/

/-- Innermost open loop level (R191). -/
def Arch.level (a : Arch) : Fin 3 := Fin.ofNat 3 (a.levels - 1)

/-- The instruction at `pc` is at LE of the innermost open level, and loop-end processing acts (R192). -/
def Context.atLoopEnd (c : Context) : Bool :=
  decide (0 < c.arch.levels) && !c.loopfz && decide (c.pc = c.arch.le[c.arch.level])

/-- BDATA of a cause: the spec's value, or a free value where it gives none (log 27, DESIGN CHOICE). -/
def State.causeData (s : State) (r : Raise) : Word × State :=
  match r.data with
  | some d => (d, s)
  | none => (Config.freeWord s.free, { s with free := s.free + 1 })

/-- The Bell (R206): BEPC, BCAUSE, BSLOT and BDATA receive the cause, CXSTAT[16] and LOOPFZ are set, and fetch goes to
BELLV. The stacks are not touched. -/
def State.enterBell (s : State) (t : Ctx) (r : Raise) (f : CauseFlags) (bepc : BitVec 19) : State :=
  let (d, s) := s.causeData r
  let s := s.modCtx t (fun c =>
    { c with
      bepc := bepc, bcause := bcauseWord r f, bslot := r.slot, bdata := d, inBell := true, loopfz := true, lctl := none,
      pc := c.bellv, branch := none })
  s.modUnit (s.ctx t).unit (fun u => { u with bells := u.bells + 1 })

/-- A synchronous cause in a handler halts the context as NESTED (R209, Table FL-9). -/
def State.nested (s : State) (t : Ctx) (r : Raise) : State :=
  s.haltCtx t 0x35 0xff (((s.ctx t).bcause.toNat % 64) * 256 + r.code.toNat) (some (s.ctx t).unit)

/-- Take a synchronous cause at the context's pc (R199, R207, R209, R210): a cause in a delay slot undoes the branch and
saves the branch's address. -/
def State.takeSync (s : State) (t : Ctx) (r : Raise) : State :=
  let c := s.ctx t
  if c.inBell then s.nested t r
  else
    let f : CauseFlags := { ds := c.branch.isSome, ms := r.ms, le := c.atLoopEnd, sp := r.sp, as_ := false }
    match c.branch with
    | some b => (s.modArch t (fun _ => b.undo)).enterBell t r f b.addr
    | none => s.enterBell t r f c.pc

/-- A cause that stands at the context's pc, to be taken now: after the commit when a mode shadow is open, whose remaining slots
pass empty (R211), otherwise at once. -/
def State.takeHere (s : State) (t : Ctx) (r : Raise) : State :=
  match (s.ctx t).shadow with
  | some sh => s.modCtx t (fun c => { c with shadow := some { sh with left := 0, pending := some r } })
  | none => s.takeSync t r

/-- A mode shadow in front of a MODE, WAIT or YIELD, or of a held cause: its remaining slots pass empty, so that the commit comes first
(R105, R211). -/
def State.emptyShadow (s : State) (t : Ctx) : State :=
  s.modCtx t (fun c => { c with shadow := c.shadow.map (fun sh => { sh with left := 0 }) })

/-- A synchronous cause arises at the context's pc: held while it speculates (R201), pending until the commit in a mode
shadow (R211), otherwise taken. -/
def State.cause (s : State) (t : Ctx) (r : Raise) : State :=
  let r := { r with ms := (s.ctx t).shadow.isSome }
  match (s.ctx t).spec with
  | some sp => (s.modCtx t (fun c => { c with spec := some { sp with held := some { r with sp := true } } })).emptyShadow t
  | none => s.takeHere t r

/-! ### When an instruction may issue -/

/-- A cause is due at the context's next boundary (R207, R209). -/
def Context.bellDue (c : Context) : Bool :=
  c.branch.isNone && c.shadow.isNone && (!c.sync.isEmpty || (!c.pend.isEmpty && !c.inBell))

/-- A swap point lies at this boundary (R213). -/
def Context.swapPoint (c : Context) : Bool := c.branch.isNone && c.shadow.isNone && c.sop.isNone && (c.queued.isNone || c.rerun.isSome)

/-- The context runs on its unit in RUN, the array awake. -/
def State.running (s : State) (t : Ctx) : Bool :=
  let c := s.ctx t
  let u := s.hunit c.unit
  decide (s.power.phase = .run) && !s.modes.parked && decide (c.state = .running) && decide (u.ctx = some t) && !u.offline

/-- A pair with the barrier bit still waits for its store (R176). -/
def State.barWait (s : State) (t : Ctx) : Bool :=
  let c := s.ctx t
  c.bar && ((s.hunit c.unit).buffer.any (fun e => decide (e.ctx = t)) || s.unacked t)

/-- A speculated strand op stalls for want of a ninth provisional plane, where run-ahead stops (R202). -/
def Context.provStalled (c : Context) : Bool :=
  match c.sop with
  | some o => o.stall == .prov
  | none => false

/-- Context `t` issues an instruction: it runs, no cause is due or held, no commit, swap or barrier is due. -/
def State.canIssue (s : State) (t : Ctx) : Bool :=
  let c := s.ctx t
  s.running t && !c.bellDue
  && (match c.shadow with
      | some sh => decide (0 < sh.left)
      | none => true)
  && (match c.spec with
      | some sp => sp.held.isNone && !c.opFaulted && !c.provStalled
      | none => c.rerun.isNone)
  && !((s.hunit c.unit).swapPend && c.swapPoint) && !s.barWait t

/-! ### Completion -/

/-- Where an instruction leads. -/
inductive Flow where
  | seq                                          -- the next address
  | jump (a : BitVec 19)                         -- a transfer without a delay slot
  | branch (target : BitVec 19) (taken : Bool)   -- a branch whose delay slot follows
  | hold                                         -- the same instruction goes on (REPS)

/-- Loop-end processing at address `p` (R192): the innermost level's LC falls by one; while it is not zero the next
address is LS, and when it reaches zero the level closes and the next level out with the same LE follows. -/
def loopEnd : (fuel : Nat) → Arch → BitVec 19 → Arch × BitVec 19
  | 0, a, p => (a, p + 1)
  | fuel + 1, a, p =>
    if 0 < a.levels ∧ a.le[a.level] = p then
      let lc := a.lc[a.level] - 1
      let a' := { a with lc := a.lc.set a.level lc }
      if lc ≠ 0 then (a', a.ls[a.level]) else loopEnd fuel { a' with levels := a.levels - 1 } p
    else (a, p + 1)

/-- The next address after the instruction at the context's pc, with loop-end processing (R192). -/
def Context.advance (c : Context) : Context :=
  if c.loopfz then { c with pc := c.pc + 1 }
  else
    let r := loopEnd 3 c.arch c.pc
    { c with arch := r.1, pc := r.2 }

/-- The instruction has completed in sequence: a delay slot ends its branch, whose transfer overrides loop-end
processing (R182, R192, R199). -/
def Context.sequel (c : Context) : Context :=
  match c.branch with
  | some b => if b.taken then { c with pc := b.target, branch := none } else { c.advance with branch := none }
  | none => c.advance

/-- Follow a flow. `undo` is the state a fault in the delay slot restores. -/
def Context.follow (c : Context) (fl : Flow) (undo : Arch) : Context :=
  match fl with
  | .seq => c.sequel
  | .jump a => { c with pc := a }
  | .branch target taken =>
    { c with pc := c.pc + 1, branch := some { addr := c.pc, target := target, taken := taken, undo := undo } }
  | .hold => c

/-- An issue slot has passed: CXTIME, one slot of a mode shadow that stood before it (R105), and the barrier bit of the
instruction (R176). -/
def Context.slotDone (c : Context) (before : Option Shadow) (bar : Bool) : Context :=
  { c with
    time := c.time + 1, bar := bar,
    shadow := match before with
      | some sh => some { sh with left := sh.left - 1 }
      | none => c.shadow }

/-- The instruction of `undo`'s context completes (R199, R192, R105). -/
def State.finish (s : State) (t : Ctx) (fl : Flow) (undo : Arch) (before : Option Shadow) (bar : Bool) : State :=
  match fl with
  | .hold => s
  | _ => s.modCtx t (fun c => (c.follow fl undo).slotDone before bar)

/-! ### Issue -/

/-- What the issue stage needs of an instruction: its word for BDATA, whether it is plain (R181, R182) and whether
run-ahead stops at it (Table PB-3). -/
structure InstrKind where
  word    : Word
  plain   : Bool
  barrier : Bool
  resumes : Bool := false   -- REPS: elements done before a cause stand (R190)
  bar     : Bool := false   -- the barrier bit of a pair (R176)

/-- Causes whose access, entry or free value has counted before the instruction is undone. -/
def Raise.counted (r : Raise) : Bool :=
  decide (r.code = causeNiecc) || decide (r.code = causeNitmo) || decide (r.code = causeSlent) || decide (r.code = causePairdep)

/-- An instruction that does not complete leaves its context and its unit's store buffer as they stood; what it has sent stays on its way.
`s` is the state before it, `s'` the state in which it waits. A context that an event of the access has stopped or halted stays so. -/
def State.undo (s' s : State) (t : Ctx) : State :=
  if (s'.ctx t).state = (s.ctx t).state ∧ s'.power = s.power then
    (s'.modCtx t (fun c => { s.ctx t with pend := c.pend, sync := c.sync, mailbox := c.mailbox })).modUnit (s.ctx t).unit (fun u =>
      { u with buffer := (s.hunit (s.ctx t).unit).buffer })
  else s'

/-- Whether an instruction of a speculation that cannot go on has met a limit of R202: a barrier, a 25th STRAND, or a full store
buffer. An instruction that waits for its own access has a fill under way. -/
def State.atLimit (s : State) (t : Ctx) (k : InstrKind) : Bool :=
  let u := s.hunit (s.ctx t).unit
  match (s.ctx t).spec with
  | some sp =>
    k.barrier
    || (if k.word.toNat / 2048 = 0x1b then decide (24 ≤ sp.strands) else decide (8 ≤ u.buffer.length) && u.fills.isEmpty)
  | none => false

/-- Whether the unit of context `t` stalls at a limit of R202 (HUSTAT). -/
def State.setLimited (s : State) (t : Ctx) (b : Bool) : State :=
  s.modCtx t (fun c => { c with spec := c.spec.map (fun sp => { sp with limited := b }) })

/-- Issue one instruction of context `t` (R173, R182, R192, R196, R199, R201): the fetch, the checks of its place, its
body, and then its completion or its cause. An instruction that may not issue now, or that stalls, leaves the context
where it is. -/
def State.issue (s : State) (t : Ctx) (k : InstrKind) (body : State → Res Flow) : State :=
  if !s.canIssue t then s
  else
    match s.fetch t (s.ctx t).pc with
    | .raise s' r => s'.cause t r
    | .stall s' => s'
    | .ok s _ =>
      let c := s.ctx t
      if !k.plain && c.branch.isSome then s.cause t (syncCause causeUnd k.word)
      else if !k.plain && c.atLoopEnd then s.cause t (syncCause causeLoopx k.word)
      else if k.barrier && c.spec.isSome then s.setLimited t true
      else
        match body s with
        | .ok s' fl => (s'.finish t fl c.arch c.shadow k.bar).setLimited t false
        | .stall s' => (s'.undo s t).setLimited t (s'.atLimit t k)
        | .raise s' r =>
          if k.resumes then s'.cause t r
          else if r.counted then (s'.modArch t (fun _ => c.arch)).cause t r
          else s.cause t r

/-! ### Stack pieces -/

/-- Pop `n` items: DSUNF when fewer are present (R177). -/
def State.pops (s : State) (t : Ctx) (n : Nat) (word : Word) (f : State → List Word → Res Flow) : Res Flow :=
  let ds := (s.ctx t).arch.ds
  if ds.length < n then .raise s (syncCause causeDsunf word)
  else f (s.modArch t (fun a => { a with ds := ds.drop n })) (ds.take n)

/-- Push items, the last of the list on top: DSOVF above sixteen (R177). -/
def State.pushes (s : State) (t : Ctx) (vs : List Word) (word : Word) : Res Unit :=
  let ds := vs.reverse ++ (s.ctx t).arch.ds
  if 16 < ds.length then .raise s (syncCause causeDsovf word)
  else .ok (s.modArch t (fun a => { a with ds := ds })) ()

/-- A return-stack push (R178): RSOVF at depth twelve, or with RSWRAP the oldest entry is lost. -/
def State.rpush (s : State) (t : Ctx) (v word : Word) : Res Unit :=
  let a := (s.ctx t).arch
  if a.rs.length < 12 then .ok (s.modArch t (fun a => { a with rs := v :: a.rs })) ()
  else if a.rswrap then .ok (s.modArch t (fun a => { a with rs := v :: a.rs.take 11 })) ()
  else .raise s (syncCause causeRsovf word)

/-- A return-stack pop (R178). -/
def State.rpop (s : State) (t : Ctx) (word : Word) : Res Word :=
  match (s.ctx t).arch.rs with
  | [] => .raise s (syncCause causeRsunf word)
  | v :: rs => .ok (s.modArch t (fun a => { a with rs := rs })) v

/-- Continue in sequence. -/
def Res.seq (r : Res Unit) : Res Flow := r.bind (fun s _ => .ok s .seq)

end Sys2Proof.Machine
end

