-- ==== Sys2Proof/Machine/Array.lean ====
section
/-! DEFINITION. The Braid's planes and one PE step (R135 to R142): plane reads and writes with their provisional planes,
neighbour links, and the ends of runs. -/

namespace Sys2Proof.Machine

/-! ### Planes, carry and activity -/

/-- The entry at a key, if one is listed: an allocation among the provisional planes. -/
def Mem.entry {α : Type} (m : Mem α) (k : Nat) : Option α := (m.find? (fun e => decide (e.1 = k))).map (·.2)

/-- The key of a plane of a strip. -/
def planeKey (k : Strip) (p : Nat) : Nat := 4096 * k.val + p

/-- A plane of a strip as a read sees it (R141). -/
def Braid.plane (b : Braid) (k : Strip) (p : Nat) : Plane :=
  (Mem.entry b.prov (planeKey k p)).getD (Mem.get 0 b.planes (planeKey k p))

/-- C of a strip, and the complement of A, as a read sees them. -/
def Braid.c (b : Braid) (k : Strip) : Plane := (Mem.entry b.provC k.val).getD (Mem.get 0 b.carry k.val)
def Braid.notA (b : Braid) (k : Strip) : Plane := (Mem.entry b.provA k.val).getD (Mem.get 0 b.inact k.val)

/-- An architectural write. -/
def Braid.poke (b : Braid) (k : Strip) (p : Nat) (v : Plane) : Braid :=
  { b with planes := Mem.set 0 b.planes (planeKey k p) v }

/-- A destination write (R141): a provisional one goes to the plane's provisional plane; an architectural one also keeps
an allocated provisional plane in step, since that is what the commit renames (log 29, DEDUCED). -/
def Braid.write (b : Braid) (k : Strip) (p : Nat) (v : Plane) (prov : Bool) : Braid :=
  let key := planeKey k p
  if prov then { b with prov := Mem.insert key v b.prov }
  else
    let b := b.poke k p v
    if (Mem.entry b.prov key).isSome then { b with prov := Mem.insert key v b.prov } else b

def Braid.writeC (b : Braid) (k : Strip) (v : Plane) (prov : Bool) : Braid :=
  if prov then { b with provC := Mem.insert k.val v b.provC }
  else
    let b := { b with carry := Mem.set 0 b.carry k.val v }
    if (Mem.entry b.provC k.val).isSome then { b with provC := Mem.insert k.val v b.provC } else b

/-- Write A, given as A. -/
def Braid.writeA (b : Braid) (k : Strip) (a : Plane) (prov : Bool) : Braid :=
  let v := ~~~a
  if prov then { b with provA := Mem.insert k.val v b.provA }
  else
    let b := { b with inact := Mem.set 0 b.inact k.val v }
    if (Mem.entry b.provA k.val).isSome then { b with provA := Mem.insert k.val v b.provA } else b

/-- Provisional planes allocated in strip `k` (the same in every strip of its partition). -/
def Braid.allocated (b : Braid) (k : Nat) : Nat := (b.prov.filter (fun e => decide (e.1 / 4096 = k))).length

/-- Every provisional plane of the strips `mine` is renamed into its architectural plane, and the shadows of C and A
become architectural (R141, R203). -/
def Braid.commit (b : Braid) (mine : Nat → Bool) : Braid :=
  let b1 := (b.prov.filter (fun e => mine (e.1 / 4096))).foldl (fun (b : Braid) e =>
    { b with planes := Mem.set 0 b.planes e.1 e.2 }) b
  let b2 := (b.provC.filter (fun e => mine e.1)).foldl (fun (b : Braid) e =>
    { b with carry := Mem.set 0 b.carry e.1 e.2 }) b1
  let b3 := (b.provA.filter (fun e => mine e.1)).foldl (fun (b : Braid) e =>
    { b with inact := Mem.set 0 b.inact e.1 e.2 }) b2
  { b3 with
    prov := b.prov.filter (fun e => !mine (e.1 / 4096)), provC := b.provC.filter (fun e => !mine e.1),
    provA := b.provA.filter (fun e => !mine e.1) }

/-- The strips that tenant `t` owns, by number. -/
def State.mine (s : State) (t : Ctx) (k : Nat) : Bool := if h : k < 16 then s.ownsStrip t ⟨k, h⟩ else false

/-- The provisional planes of tenant `t` commit. -/
def State.commitProv (s : State) (t : Ctx) : State := { s with braid := s.braid.commit (s.mine t) }

/-! ### Neighbour links (R142) -/

/-- One bit per column, at row 0. -/
def row0 : Plane := BitVec.ofNat 1024 ((2 ^ 1024 - 1) / (2 ^ 128 - 1))
/-- The PEs of rows 1 to 127, and of rows 0 to 126. -/
def notRow0 : Plane := ~~~row0
def notRow127 : Plane := ~~~(row0 <<< 127)

/-- The strip east and the strip west of `k` in its run; at the run's end the other end with `wrap`. -/
def State.eastStrip (s : State) (t : Ctx) (k : Strip) (wrap : Bool) : Option Strip :=
  if s.inPart t (k.val + 1) then some (Fin.ofNat 16 (k.val + 1))
  else if wrap then some (Fin.ofNat 16 (s.runStart t k.val)) else none

def State.westStrip (s : State) (t : Ctx) (k : Strip) (wrap : Bool) : Option Strip :=
  if 0 < k.val ∧ s.inPart t (k.val - 1) then some (Fin.ofNat 16 (k.val - 1))
  else if wrap then some (Fin.ofNat 16 (s.runEnd t 16 k.val)) else none

/-- Plane `p` of the strip, or zeros past the end of a run. -/
def Braid.planeOr (b : Braid) (p : Nat) : Option Strip → Plane
  | some k => b.plane k p
  | none => 0

/-- What every PE of strip `k` reads of plane `p` in its neighbour to the east, and to the west. -/
def State.east (s : State) (t : Ctx) (k : Strip) (p : Nat) (wrap : Bool) : Plane :=
  (s.braid.plane k p >>> 128) ||| (s.braid.planeOr p (s.eastStrip t k wrap) <<< 896)
def State.west (s : State) (t : Ctx) (k : Strip) (p : Nat) (wrap : Bool) : Plane :=
  (s.braid.plane k p <<< 128) ||| (s.braid.planeOr p (s.westStrip t k wrap) >>> 896)

/-- South of row 127 and north of row 0 (Table BR-5). -/
def State.southEdge (s : State) (t : Ctx) (k : Strip) (p : Nat) (ns : Nat) : Plane :=
  match ns with
  | 0 => 0
  | 1 => s.braid.plane k p &&& row0
  | 2 => s.east t k p false &&& row0
  | _ => s.east t k p true &&& row0

def State.northEdge (s : State) (t : Ctx) (k : Strip) (p : Nat) (ns : Nat) : Plane :=
  match ns with
  | 0 => 0
  | 1 => (s.braid.plane k p >>> 127) &&& row0
  | 2 => (s.west t k p false >>> 127) &&& row0
  | _ => (s.west t k p true >>> 127) &&& row0

/-- Row + 1 and row - 1 of plane `p`. -/
def State.south (s : State) (t : Ctx) (k : Strip) (p : Nat) (ns : Nat) : Plane :=
  ((s.braid.plane k p >>> 1) &&& notRow127) ||| (s.southEdge t k p ns <<< 127)
def State.north (s : State) (t : Ctx) (k : Strip) (p : Nat) (ns : Nat) : Plane :=
  ((s.braid.plane k p <<< 1) &&& notRow0) ||| s.northEdge t k p ns

/-- b' by NSEL (Table BR-1): `ns` and `ew` are NSMODE and EWWRAP of the run. -/
def State.operandB (s : State) (t : Ctx) (k : Strip) (nsel : Nat) (p : Nat) (ns : Nat) (ew : Bool) : Plane :=
  match nsel with
  | 0 => s.braid.plane k p
  | 1 => s.north t k p ns
  | 2 => s.east t k p ew
  | 3 => s.south t k p ns
  | 4 => s.west t k p ew
  | 5 => (s.strip k).inlet.hold
  | _ => 0

/-! ### One step (R137, R138) -/

/-- r = LUT[4a + 2b' + c] in every PE. -/
def lutPlane (lut : Byte) (a b c : Plane) : Plane :=
  let pick (i : Nat) (m : Plane) : Plane := if lut.getLsbD i then m else 0
  pick 0 (~~~a &&& ~~~b &&& ~~~c) ||| pick 1 (~~~a &&& ~~~b &&& c) ||| pick 2 (~~~a &&& b &&& ~~~c)
    ||| pick 3 (~~~a &&& b &&& c) ||| pick 4 (a &&& ~~~b &&& ~~~c) ||| pick 5 (a &&& ~~~b &&& c)
    ||| pick 6 (a &&& b &&& ~~~c) ||| pick 7 (a &&& b &&& c)

/-- `v` where `m` is set, `old` elsewhere. -/
def merge (m v old : Plane) : Plane := (v &&& m) ||| (old &&& ~~~m)

/-- Majority, in every PE. -/
def majority (a b c : Plane) : Plane := (a &&& b) ||| (a &&& c) ||| (b &&& c)

/-- What one step does to one strip. -/
structure StepResult where
  dest : Plane
  c    : Option Plane
  a    : Option Plane
  conf : Bool           -- some PE with e = 1 has r = 1

/-- The PE step of R137 in one strip on the values before the step. -/
def peStep (lut : Byte) (car act : Nat) (a b c active old : Plane) : StepResult :=
  let r := lutPlane lut a b c
  let e := if act = 1 ∨ act = 3 then active else BitVec.allOnes 1024
  { dest := merge e r old,
    c := match car with
      | 0 => none
      | 1 => some (merge e (majority a b c) c)
      | 2 => some (merge e 0 c)
      | _ => some (merge e (BitVec.allOnes 1024) c),
    a := match act with
      | 2 => some r
      | 3 => some (active &&& r)
      | _ => none,
    conf := decide (r &&& e ≠ 0) }

end Sys2Proof.Machine
end

