-- ==== Sys2Proof/Machine/Sluice.lean ====
section
/-! DEFINITION. The Sluice (R157 to R164, R166, R169): microword fields, the loader's shift marks (R202), and the
micro-sequencer one step at a time, with the outlet buffers of R150 to R152 and the stalls of R148, R150 and R202. The
ROM entries stand in Rom.lean; a transfer to one that no patch overlays runs the entry there. -/

namespace Sys2Proof.Machine

/-! ### Fields (Table SL-2) -/

def mwBase (w : MicroWord) : BitVec 12 := w.extractLsb' 84 12
def mwCsel (w : MicroWord) : Nat := (w.extractLsb' 80 4).toNat
def mwCyc (w : MicroWord) : Nat := (w.extractLsb' 76 4).toNat
def mwSeq (w : MicroWord) : Nat := (w.extractLsb' 74 2).toNat
def mwLut (w : MicroWord) : Byte := w.extractLsb' 66 8
def mwPa (w : MicroWord) : BitVec 11 := w.extractLsb' 55 11
def mwPb (w : MicroWord) : BitVec 11 := w.extractLsb' 44 11
def mwPd (w : MicroWord) : BitVec 11 := w.extractLsb' 33 11
def mwNsel (w : MicroWord) : Nat := (w.extractLsb' 30 3).toNat
def mwAct (w : MicroWord) : Nat := (w.extractLsb' 28 2).toNat
def mwCar (w : MicroWord) : Nat := (w.extractLsb' 26 2).toNat
def mwConf (w : MicroWord) : Bool := w.getLsbD 25
def mwProv (w : MicroWord) : Bool := w.getLsbD 24
def mwIncA (w : MicroWord) : Nat := (w.extractLsb' 22 2).toNat
def mwIncB (w : MicroWord) : Nat := (w.extractLsb' 20 2).toNat
def mwIncD (w : MicroWord) : Nat := (w.extractLsb' 18 2).toNat
def mwAdvance (w : MicroWord) : Bool := decide (w.extractLsb' 16 2 = 1#2)
def mwOutl (w : MicroWord) : Nat := (w.extractLsb' 12 4).toNat

/-- The neutral word (R166): SEQ 01b, LUT F0h, every other field zero. -/
def neutral : MicroWord := 0x000007C00000000000000000

/-- A word that shifts (R153). -/
def mwShifts (w : MicroWord) : Bool := decide (mwNsel w = 5) || decide (mwOutl w ≠ 0)

/-- An open-region word; what no tenant has loaded is neutral (R166). -/
def State.openWord (s : State) (a : BitVec 12) : MicroWord :=
  Mem.get neutral s.sluice.openRegion (a.toNat - 0xc00)

/-- Whether an address lies in the allotment of tenant `t` (R166). -/
def State.inAllotment (s : State) (t : Ctx) (a : Nat) : Bool :=
  decide (0xc00 + s.sluice.base[t] ≤ a) && decide (a < 0xc00 + s.sluice.base[t] + s.sluice.len[t])

/-- The entries of Table SL-4. -/
def romListed (e : Nat) : Bool :=
  [0x001, 0x002, 0x003, 0x004, 0x005, 0x006, 0x007, 0x008, 0x009, 0x00a, 0x00b, 0x010, 0x011, 0x012, 0x014, 0x015,
   0x016, 0x018, 0x01c, 0x020, 0x021, 0x040, 0x048, 0x050, 0x058, 0x060, 0x068].contains e
  || (decide (0x3e0 ≤ e) && decide (e ≤ 0x3ef))

/-- The patch RAM word that overlays a ROM address (R169). -/
def State.patchWord (s : State) (addr : BitVec 12) : Option Nat :=
  (s.sluice.map.find? (fun e => decide (e.1.toNat = addr.toNat / 4 * 4))).map (fun e => 4 * e.2.toNat + addr.toNat % 4)

/-- A ROM entry that no patch overlays: it runs by its contract of Table SL-4 (R165, R169, R378). Log 36, DEDUCED. -/
def State.byContract (s : State) (a : BitVec 12) : Bool :=
  decide (a.toNat < 0xc00) && (s.patchWord a).isNone && romListed a.toNat

/-- The word that a fetch reads (R166, R169): the open region's, patch RAM's where it overlays, or the ROM release's. -/
def State.storeWord (s : State) (a : BitVec 12) : MicroWord :=
  if 0xc00 ≤ a.toNat then s.openWord a
  else
    match s.patchWord a with
    | some w => s.sluice.patchRam[Fin.ofNat 256 w]
    | none => Config.romWord a

/-! ### Shift marks (R202) -/

/-- The bits of COND that a condition group can set (Table SL-3). -/
def condMask (csel : Nat) : Nat :=
  match csel with
  | 1 => 1 | 2 => 1 | 3 => 3 | 4 => 1 | 5 => 1 | 6 => 3 | 8 => 15
  | _ => 0

/-- The addresses that a word can go to: its targets for every COND, and the return address of a micro-call. -/
def successors (a : Nat) (w : MicroWord) : List Nat :=
  let base := (mwBase w).toNat
  let targets := ((List.range 16).filter (fun c => c &&& condMask (mwCsel w) = c)).map (fun c => base ||| c)
  match mwSeq w with
  | 0 => targets
  | 2 => (a + 1) :: targets
  | _ => []

/-- Close a set of addresses under `successors`, looking at most `fuel` times. -/
def State.reach (s : State) : (fuel : Nat) → List Nat → List Nat → List Nat
  | 0, _, seen => seen
  | _, [], seen => seen
  | fuel + 1, a :: todo, seen =>
    if seen.contains a then s.reach fuel todo seen
    else
      s.reach fuel ((if s.byContract (BitVec.ofNat 12 a) then [] else successors a (s.storeWord (BitVec.ofNat 12 a))) ++ todo)
        (a :: seen)

/-- The first word of entry `e` (R158). -/
def entryAddr (e : BitVec 11) : BitVec 12 :=
  if e.getLsbD 10 then BitVec.ofNat 12 (0xc00 + e.toNat % 1024) else e.zeroExtend 12

/-- Whether an entry carries a shift mark (R202): a word that shifts can be reached from it. INH and OUTP shift. -/
def State.shiftMark (s : State) (e : BitVec 11) : Bool :=
  (s.reach 32768 [(entryAddr e).toNat] []).any (fun a =>
    if s.byContract (BitVec.ofNat 12 a) then decide (a = 0x020) || decide (a = 0x021)
    else mwShifts (s.storeWord (BitVec.ofNat 12 a)))

/-! ### The strand op under way -/

/-- Replace the strand op under way. -/
def State.setOp (s : State) (t : Ctx) (o : StrandOp) : State := s.modCtx t (fun c => { c with sop := some o })

/-- The context whose strand op a unit's micro-sequencer holds: the one that runs, or one that waits while its op is under way. -/
def State.unitCtx (s : State) (n : UnitId) : Option Ctx :=
  match (s.hunit n).ctx with
  | some t => some t
  | none => allCtx.find? (fun t => decide ((s.ctx t).unit = n) && (s.ctx t).sop.isSome)

/-- The strand op under way in a unit's micro-sequencer. -/
def State.unitOp (s : State) (n : UnitId) : Option StrandOp := (s.unitCtx n).bind (fun t => (s.ctx t).sop)

/-- The unit's FIX state (R164): it runs T0 during an open PROOF window. -/
def State.fixNow (s : State) (t : Ctx) : Bool := decide (t = 0) && s.modes.hw.getLsbD mProof

/-- NSMODE and EWWRAP of all strips as they stand. -/
def State.edgeModes (s : State) : BitVec 32 × BitVec 16 :=
  allStrips.foldl (fun (x : BitVec 32 × BitVec 16) k =>
    (x.1 ||| ((s.strip k).nsmode.zeroExtend 32 <<< (2 * k.val)),
     if (s.strip k).ewwrap then x.2 ||| (1#16 <<< k.val) else x.2)) (0, 0)

/-- NSMODE and EWWRAP that the op uses for strip `k`: those of the lowest strip of its run (R142). -/
def State.runNs (s : State) (t : Ctx) (o : StrandOp) (k : Strip) : Nat :=
  (o.ns.toNat / 4 ^ s.runStart t k.val) % 4
def State.runEw (s : State) (t : Ctx) (o : StrandOp) (k : Strip) : Bool := o.ew.getLsbD (s.runStart t k.val)

/-- Executed steps, counted in every strip of the partition (BRSTEP). -/
def State.countSteps (s : State) (t : Ctx) (n : Nat) : State :=
  (s.partition t).foldl (fun s k => s.modStrip k (fun x => { x with steps := x.steps + BitVec.ofNat 36 n })) s

/-- The strips' outlets take back what an op that does not commit has captured (R150, R153). -/
def State.dropCaptures (s : State) (t : Ctx) : State :=
  (s.partition t).foldl (fun s k => s.modOutlet k (fun (o : Outlet) => { o with opened := o.saved, inOp := [] })) s

/-- The op under way of context `t` ends without committing: its provisional writes and captures are discarded, and its
hold-buffer read does not count. Log 45, DEDUCED. -/
def State.abortOp (s : State) (t : Ctx) : State :=
  let s := ((s.keepSeq t).dropProv t).dropCaptures t
  s.modCtx t (fun c => { c with sop := none })

/-- The lowest logical strip of the partition, for the fault entry (Table FL-9). -/
def State.lowStrip (s : State) (t : Ctx) : Byte :=
  match s.partition t with
  | k :: _ => BitVec.ofNat 8 k.val
  | [] => 0xff

/-- Count SLSTK or SLRUN (SLFLT). -/
def State.countSl (s : State) (code : Nat) : State :=
  if code = 0x31 then { s with sluice := { s.sluice with slstk := satInc s.sluice.slstk } }
  else if code = 0x32 then { s with sluice := { s.sluice with slrun := satInc s.sluice.slrun } }
  else s

/-- A C2 fault of a strand op (PROVX, SLSTK, SLRUN): the op does not commit, and the context halts (R141, R161, R163). -/
def State.opFault (s : State) (t : Ctx) (code : Nat) (entry : BitVec 11) (sp : Bool) : State :=
  let obj := s.lowStrip t
  let s := s.abortOp t
  let (n, s) := s.takeFree
  let s := s.recordCause t (BitVec.ofNat 6 code) (Config.freeWord n) 0 sp
  s.haltCtx t code obj entry.toNat (some (s.ctx t).unit)

/-- The same of an op of a speculation is held (R201). -/
def State.raiseOp (s : State) (t : Ctx) (o : StrandOp) (code : Nat) : State :=
  let s := s.countSl code
  if o.spec then s.setOp t { o with ended := .faulted code } else s.opFault t code o.entry false

/-- A kind O cause of a strand op (R357): the op does not commit, the cause is due at the next boundary, and WAIT event 1 may rise. A
speculation past the op rolls back (R205; log 146, DEDUCED). -/
def State.opCause (s : State) (t : Ctx) (r : Raise) : State :=
  let s := (s.abortOp t).modCtx t (fun c => { c with sync := c.sync ++ [{ r with ms := c.shadow.isSome }] })
  (s.rollAsync t).levelEvent t

/-- The same of an op of a speculation is held (R201, R357). -/
def State.raiseOpCause (s : State) (t : Ctx) (o : StrandOp) (r : Raise) : State :=
  if o.spec then s.setOp t { o with ended := .raised r.code r.qual } else s.opCause t r

/-- Cycles of CK_A in `ns` at the operating point in force (Table GA-2): 250 MHz and 25 MHz a step. -/
def State.akCycles (s : State) (ns : Nat) : Nat := ns * (250 + 25 * s.gauge.step) / 1000

/-- The end of a stall, if there is one: its cycles count in BRSTLI or BRSTLO of every strip of the partition. -/
def State.unstall (s : State) (t : Ctx) (o : StrandOp) : State × StrandOp :=
  let n := s.akCycles (s.now - o.stallAt)
  let s : State := match o.stall with
    | .inlet => (s.partition t).foldl (fun (s : State) k => s.modStrip k (fun x => { x with stli := satAdd x.stli n })) s
    | .outlet => (s.partition t).foldl (fun (s : State) k => s.modStrip k (fun x => { x with stlo := satAdd x.stlo n })) s
    | _ => s
  (s, { o with stall := .no })

/-- The op stalls (R148, R150, R202), or goes on stalling. -/
def State.stallOp (s : State) (t : Ctx) (o : StrandOp) (why : Stall) : State :=
  if o.stall = why then s.setOp t o
  else
    let r := s.unstall t o
    r.1.setOp t { r.2 with stall := why, stallAt := s.now }

/-! ### Outlets (R150 to R152) -/

/-- Buffers occupied. -/
def Outlet.used (o : Outlet) : Nat := o.ready.length + o.inOp.length + (if o.opened.isSome then 1 else 0)

/-- Buffers that the op under way has opened. -/
def Outlet.openedInOp (o : Outlet) : Nat :=
  o.inOp.length + (if o.opened.isSome then 1 else 0) - (if o.saved.isSome then 1 else 0)

/-- Whether a capture, or a release with no buffer open, raises OUTLETO (R152, Table BR-10; log 30, DEDUCED). -/
def Outlet.refuses (o : Outlet) (capture : Bool) : Bool :=
  (capture && !o.en)
  || (o.opened.isNone && decide (4 ≤ o.openedInOp))
  || (capture && decide (o.end_.toNat < o.addr.toNat + 32 * (o.ready.length + o.inOp.length) + 32))

/-- Whether a capture's send would pass OUTEND (R152), which also ends a CAPTURE burst (R115). -/
def Outlet.passesEnd (o : Outlet) : Bool :=
  o.en && decide (o.end_.toNat < o.addr.toNat + 32 * (o.ready.length + o.inOp.length) + 32)

/-- OUTLETO at strip `k` (R152; log 30, DEDUCED): the op does not commit, and OUTERR shows it. -/
def State.outleto (s : State) (t : Ctx) (o : StrandOp) (k : Strip) (capture : Bool) : State :=
  let full := capture && (s.strip k).outlet.passesEnd
  let r : Raise := { code := causeOutletO, qual := BitVec.ofNat 4 k.val, slot := 0, data := none, ms := false }
  let s := (s.raiseOpCause t o r).modOutlet k (fun o => { o with err := true })
  if full then s.endBurst t endFull else s

/-- Whether it must wait for a buffer. -/
def Outlet.waits (o : Outlet) : Bool := o.opened.isNone && decide (4 ≤ o.used)

/-- Capture `bits` into the open buffer. -/
def Outlet.capture (o : Outlet) (bits : Plane) : Outlet := { o with opened := some bits }
/-- Release the open buffer as it stands; one that no capture has touched holds zeros. -/
def Outlet.release (o : Outlet) : Outlet := { o with opened := none, inOp := o.inOp ++ [o.opened.getD 0] }

/-- The lowest strip whose outlet refuses, and whether any waits. -/
def State.outletRefusal (s : State) (t : Ctx) (capture : Bool) : Option Strip :=
  (s.partition t).find? (fun k => (s.strip k).outlet.refuses capture)
def State.outletWaits (s : State) (t : Ctx) : Bool := (s.partition t).any (fun k => (s.strip k).outlet.waits)

/-- Act on the outlets of the partition; `bits` is the destination plane of each strip after the step. -/
def State.outletAct (s : State) (t : Ctx) (capture release : Bool) (bits : Strip → Plane) : State :=
  (s.partition t).foldl (fun s k => s.modOutlet k (fun o =>
    let o := if capture then o.capture (bits k) else o
    if release then o.release else o)) s

/-! ### The sequencer (R160 to R164) -/

/-- The change of an address per step (R160), modulo 2 040. -/
def incOf (code : Nat) : Nat :=
  match code with
  | 1 => 1 | 2 => 2039 | 3 => 2
  | _ => 0

/-- The base address of a field: an operand slot's value, or the field itself (R139, R160). -/
def StrandOp.baseOf (o : StrandOp) (f : BitVec 11) : Nat :=
  if 0x7f8 ≤ f.toNat then o.slots[(f.toNat % 8)]'(Nat.mod_lt _ (by decide)) |>.toNat else f.toNat

/-- A field's address in step `i`. -/
def StrandOp.addr (o : StrandOp) (f : BitVec 11) (inc i : Nat) : Nat := (o.baseOf f + i * incOf inc) % 2040

/-- Whether the word is counted by MCI, and whether MCO falls (Table SL-3). -/
def countsMci (w : MicroWord) : Bool := decide (mwCsel w = 1) || decide (mwCsel w = 3)
def countsMco (w : MicroWord) : Bool := decide (mwCsel w = 2) || decide (mwCsel w = 3)

/-- Steps that the word executes (R161, R164). -/
def StrandOp.wordSteps (o : StrandOp) (w : MicroWord) : Nat :=
  if countsMci w then (if o.fix then Nat.min 1 o.mci else Nat.min (mwCyc w + 1) o.mci)
  else if o.fix then 1 else mwCyc w + 1

/-- Advance one slot by the first nonzero code among the fields that name it (R160). -/
def StrandOp.advanceSlot (o : StrandOp) (w : MicroWord) (k : Nat) (i : Fin 8) : BitVec 11 :=
  let names (f : BitVec 11) (c : Nat) : Nat := if f.toNat = 0x7f8 + i.val then incOf c else 0
  let a := names (mwPa w) (mwIncA w)
  let b := names (mwPb w) (mwIncB w)
  let d := names (mwPd w) (mwIncD w)
  let inc := if a ≠ 0 then a else if b ≠ 0 then b else d
  if inc = 0 then o.slots[i] else BitVec.ofNat 11 ((o.slots[i].toNat + k * inc) % 2040)

/-- HBR and OBF as they stand (Table SL-3). -/
def State.hbr (s : State) (t : Ctx) : Bool := (s.partition t).all (fun k => (s.strip k).inlet.unread)
def State.obf (s : State) (t : Ctx) : Bool := (s.partition t).all (fun k => decide ((s.strip k).outlet.used < 4))

/-- COND[3:0] (Table SL-3). Log 42, DEDUCED. -/
def StrandOp.cond (o : StrandOp) (csel : Nat) (mciz mcoz : Bool) (sample : Bool × Bool) : Nat :=
  let b (x : Bool) (n : Nat) : Nat := if x then n else 0
  match csel with
  | 1 => b mciz 1
  | 2 => b mcoz 1
  | 3 => b mciz 1 + b mcoz 2
  | 4 => b sample.1 1
  | 5 => b sample.2 1
  | 6 => b sample.2 1 + b sample.1 2
  | 8 => (o.slots0[5].toNat) % 16
  | _ => 0

/-- The word's end after `k` steps: counters, slot advance and the next address (R160, R161). -/
def StrandOp.wordEnd (o : StrandOp) (w : MicroWord) (k : Nat) (sample : Bool × Bool) : StrandOp :=
  let mci := o.mci - k
  let mciz := countsMci w && decide (mci = 0)
  let mco := if countsMco w then o.mco - 1 else o.mco
  let mcoz := countsMco w && decide (mco = 0)
  let target := mwBase w ||| BitVec.ofNat 12 (o.cond (mwCsel w) mciz mcoz sample)
  let o' : StrandOp :=
    { o with
      mci := if countsMci w then (if mciz then o.mcil else mci) else o.mci, mco := mco, ix := 0, sample := none,
      slots := if mwAdvance w then Vector.ofFn (fun i => o.advanceSlot w k i) else o.slots }
  match mwSeq w with
  | 0 => { o' with upc := target }
  | 2 => { o' with upc := target, stack := (o.upc + 1) :: o.stack }
  | 3 => { o' with upc := o.stack.headD 0, stack := o.stack.drop 1 }
  | _ => { o' with ended := .done }

/-- A micro-call with a full stack, or a micro-return with an empty one (R161). -/
def StrandOp.stackFault (o : StrandOp) (w : MicroWord) : Bool :=
  (decide (mwSeq w = 2) && decide (4 ≤ o.stack.length)) || (decide (mwSeq w = 3) && o.stack.isEmpty)

/-- Write a step's result into strip `k`. -/
def Braid.takeStep (b : Braid) (k : Strip) (dest : Nat) (r : StepResult) (prov : Bool) : Braid :=
  let b := b.write k dest r.dest prov
  let b := match r.c with
    | some c => b.writeC k c prov
    | none => b
  match r.a with
  | some a => b.writeA k a prov
  | none => b

/-- The hold buffers of the partition are read: only a buffer that completes from now on is one that the op has not read (R148). -/
def State.readHolds (s : State) (t : Ctx) : State :=
  (s.partition t).foldl (fun s k => s.modInlet k (fun i => { i with newer := false })) s

/-- One PE step of word `w` in every strip of the partition: all reads before all writes (R137). -/
def State.arrayStep (s : State) (t : Ctx) (o : StrandOp) (w : MicroWord) : State × StrandOp :=
  let pa := o.addr (mwPa w) (mwIncA w) o.ix
  let pb := o.addr (mwPb w) (mwIncB w) o.ix
  let pd := o.addr (mwPd w) (mwIncD w) o.ix
  let prov := o.spec || mwProv w
  let strips := s.partition t
  let results := strips.map (fun k =>
    (k, peStep (mwLut w) (mwCar w) (mwAct w) (s.braid.plane k pa)
      (s.operandB t k (mwNsel w) pb (s.runNs t o k) (s.runEw t o k)) (s.braid.c k) (~~~ s.braid.notA k)
      (s.braid.plane k pd)))
  let b := results.foldl (fun (b : Braid) x => b.takeStep x.1 pd x.2 prov) s.braid
  let s := ({ s with braid := b }).countSteps t 1
  let s := if mwNsel w = 5 then s.readHolds t else s
  let o := { o with ix := o.ix + 1, steps := o.steps + 1, readHold := o.readHold || decide (mwNsel w = 5) }
  if mwConf w then
    let hit := results.any (fun x => x.2.conf)
    let shares := results.foldl (fun (a : BitVec 16) x => if x.2.conf then a ||| (1#16 <<< x.1.val) else a) 0
    (s, { o with conf := some (o.conf.getD false || hit), shares := o.shares ||| shares })
  else (s, o)

/-- The outcome of one action of the sequencer. -/
inductive Tick where
  | go (s : State) (o : StrandOp)     -- the op goes on
  | over (s : State)                  -- it stalls, has ended or has faulted; the state holds it as it stands
  | call (s : State) (o : StrandOp)   -- the op stands at a ROM entry that no patch overlays

/-- Whether one more provisional plane can be allocated for destination `pd` of the partition of `t`. Log 43, DEDUCED. -/
def State.provRoom (s : State) (t : Ctx) (pd : Nat) : Bool :=
  match s.partition t with
  | [] => true
  | k :: _ => (Mem.entry s.braid.prov (planeKey k pd)).isSome || decide (s.braid.allocated k.val < 8)

/-- One step of the word, or a word that executes no step (R160 to R163); a ROM entry stands as a whole. -/
def State.microTick (s : State) (t : Ctx) (o : StrandOp) : Tick :=
  if s.byContract o.upc then .call s o
  else
    let w := s.storeWord o.upc
    let k := o.wordSteps w
    if o.stackFault w then .over (s.raiseOp t o 0x31)
    else if k = 0 then
      .go s (o.wordEnd w 0 (s.hbr t, s.obf t))
    else if 262144 ≤ o.steps then .over (s.raiseOp t o 0x32)
    else
      let last := decide (o.ix + 1 = k)
      let sample := o.sample.getD (s.hbr t, s.obf t)
      let o := if last then { o with sample := some sample } else o
      let capture := last && (mwOutl w == 8 || mwOutl w == 9)
      let release := last && (mwOutl w == 1 || mwOutl w == 9)
      let prov := o.spec || mwProv w
      if mwNsel w = 5 ∧ s.hbr t = false then .over (s.stallOp t o .inlet)
      else
        match (if capture || release then s.outletRefusal t capture else none) with
        | some j => .over (s.outleto t o j capture)
        | none =>
          if (capture || release) && s.outletWaits t then .over (s.stallOp t o .outlet)
          else if prov && !s.provRoom t (o.addr (mwPd w) (mwIncD w) o.ix) then
            if o.spec then .over (s.stallOp t o .prov) else .over (s.raiseOp t o 0x30)
          else
            let pd := o.addr (mwPd w) (mwIncD w) o.ix
            let u := s.unstall t o
            let r := u.1.arrayStep t u.2 w
            let s' := if capture || release then r.1.outletAct t capture release (fun k => r.1.braid.plane k pd) else r.1
            if last then
              let o' := r.2.wordEnd w k sample
              if o'.ended = .done then .over (s'.setOp t o') else .go s' o'
            else .go s' r.2

end Sys2Proof.Machine
end

