-- ==== Sys2Proof/Machine/Rom.lean ====
section
/-! DEFINITION. The ROM entries of Table SL-4, by their contracts (R165, R378): the planes an entry writes, what it leaves
in C and A, its Confluence step and its step count. What a contract leaves open is a free value (log 7, DESIGN CHOICE, log 31, DESIGN CHOICE). -/

namespace Sys2Proof.Machine

/-! ### Fields of planes, lowest bit first -/

def fieldAddrs (base n : Nat) : List Nat := (List.range n).map (fun i => (base + i) % 2040)

def Braid.field (b : Braid) (k : Strip) (f : Nat × Nat) : List Plane := (fieldAddrs f.1 f.2).map (fun p => b.plane k p)

/-- Sum of two fields of one length with a carry in, and the carry out, in every PE. -/
def addField : List Plane → List Plane → Plane → List Plane × Plane
  | x :: xs, y :: ys, c =>
    let r := addField xs ys (majority x y c)
    ((x ^^^ y ^^^ c) :: r.1, r.2)
  | _, _, c => ([], c)

/-- Unsigned product of two fields, as wide as both together. -/
def mulField (x : List Plane) : List Plane → List Plane
  | [] => x.map (fun _ => 0)
  | b :: bs =>
    -- x * b + 2 * (x * bs)
    let rest := mulField x bs
    let r := addField (x.map (fun p => p &&& b) ++ List.replicate (bs.length + 1) 0) (0 :: rest) 0
    r.1

/-- A field with every bit complemented. -/
def notField (x : List Plane) : List Plane := x.map (fun p => ~~~p)

def ones : Plane := BitVec.allOnes 1024

/-! ### Shapes -/

/-- What a row of Table SL-4 names: the field whose contents it states, the fields it writes without stating their
contents (scratch, state, and results whose numerics it leaves to the release), the fields it reads, whether each
result bit needs only source bits of its own and lower index, and its steps. -/
structure RomShape where
  dest   : Nat × Nat
  others : List (Nat × Nat)
  srcs   : List (Nat × Nat)
  byBit  : Bool
  steps  : Option Nat

/-- A shape whose written contents are stated. -/
def stated (dest : Nat × Nat) (srcs : List (Nat × Nat)) (steps : Nat) : RomShape :=
  { dest := dest, others := [], srcs := srcs, byBit := true, steps := some steps }

/-- A shape whose written contents are left to the release. -/
def unstated (others : List (Nat × Nat)) (steps : Option Nat) : RomShape :=
  { dest := (0, 0), others := others, srcs := [], byBit := true, steps := steps }

/-- Table SL-4, with n = O7 and m = O6. INH and OUTP stand apart. Log 44, DESIGN CHOICE. -/
def romShape (e : Nat) (sl : Vector (BitVec 11) 8) : RomShape :=
  let o (i : Fin 8) : Nat := sl[i].toNat
  let n := o 7
  let m := o 6
  match e with
  | 0x003 => stated (o 0, n) [(o 1, n), (o 2, n)] n
  | 0x004 => stated (o 0, n) [(o 1, n), (o 2, n)] n
  | 0x005 => stated (o 0, n) [(o 1, n), (o 2, n)] n
  | 0x006 => stated (o 0, n) [] n
  | 0x007 => stated (o 0, n) [] n
  | 0x010 => stated (o 0, n + 1) [(o 1, n), (o 2, n)] (n + 2)
  | 0x011 => stated (o 0, n + 1) [(o 1, n), (o 2, n)] (n + 2)
  | 0x012 => { stated (o 0, n + 1) [(o 1, n), (o 2, n)] (2 * n + 2) with others := [(o 3, n)] }
  | 0x014 => stated (0, 0) [(o 1, n), (o 2, n)] (n + 2)
  | 0x015 => { stated (0, 0) [(o 1, n), (o 2, n)] (2 * n + 2) with others := [(o 3, n)] }
  | 0x016 => stated (o 1, n) [(o 1, n), (o 2, n), (o 3, n)] (2 * n + 2)
  | 0x018 => { stated (o 0, n + m) [(o 1, n), (o 2, m)] (m * (n + 2) + n + m) with byBit := false }
  | 0x01c => stated (0, 0) [(o 1, 1)] 1
  | 0x040 => unstated [(o 3, 120), (o 0, 24)] (some 1890)
  | 0x048 => { stated (o 0, 24) [(o 1, 24), (o 2, 32), (o 3, 24)] 914 with others := [(o 0 + 24, 32)], byBit := false }
  | 0x050 => unstated [(o 0, 48), (o 3, 64)] (some 151800)
  | 0x058 => { stated (o 0, 50) [(o 1, 24), (o 2, 24)] 1394 with byBit := false }
  | 0x060 => unstated [(o 0, 24), (o 3, 192)] (some 5120)
  | 0x068 => unstated [(o 0, 24)] (some 2960)
  | _ => if 0x3e0 ≤ e then unstated [(0, 2040)] none else stated (o 0, n) [(o 1, n)] n

/-- Two fields share a plane. -/
def overlap (f g : Nat × Nat) : Bool := (fieldAddrs f.1 f.2).any (fun p => (fieldAddrs g.1 g.2).contains p)

/-- Two fields share a plane other than bit for bit. -/
def skewed (f g : Nat × Nat) : Bool := overlap f g && decide (f.1 % 2040 ≠ g.1 % 2040)

/-- The operands overlap so that the result depends on the order of the body's words, which R378 leaves open: a field
that wraps onto itself, written fields that share a plane, or a written field that meets a source field. -/
def RomShape.clash (h : RomShape) : Bool :=
  let written := h.dest :: h.others
  written.any (fun f => decide (2040 < f.2))
  || h.others.any (fun f => overlap f h.dest)
  || h.srcs.any (fun f => h.others.any (fun g => overlap f g) || (if h.byBit then skewed f h.dest else overlap f h.dest))

/-! ### Results -/

/-- What an entry leaves in one strip: the stated field, the PEs where it is open, C, A, and r of its CONF step. -/
structure RomResult where
  dest : List Plane
  free : Plane := 0
  c    : Option Plane := none
  a    : Option Plane := none
  conf : Option Plane := none

/-- The contract in one strip (Table SL-4). `near` reads a plane of a neighbour by NSEL. SCALE and MAGSQ: where an operand
has its top bit set, signed and unsigned readings differ and the result is open (log 32, DESIGN CHOICE). Log 40, DEDUCED. -/
def romResult (e : Nat) (sl : Vector (BitVec 11) 8) (get : Nat × Nat → List Plane) (near : Nat → Nat → Plane) :
    RomResult :=
  let o (i : Fin 8) : Nat := sl[i].toNat
  let n := o 7
  let m := o 6
  let x1 := get (o 1, n)
  let x2 := get (o 2, n)
  let nb (d : Nat) : List Plane := (fieldAddrs (o 1) n).map (near d)
  let top (f : Nat × Nat) : Plane := (get f).getLastD 0
  match e with
  | 0x001 => { dest := x1 }
  | 0x002 => { dest := notField x1 }
  | 0x003 => { dest := List.zipWith (fun a b => a &&& b) x1 x2 }
  | 0x004 => { dest := List.zipWith (fun a b => a ||| b) x1 x2 }
  | 0x005 => { dest := List.zipWith (fun a b => a ^^^ b) x1 x2 }
  | 0x006 => { dest := List.replicate n ones }
  | 0x007 => { dest := List.replicate n 0 }
  | 0x008 => { dest := nb 1 }
  | 0x009 => { dest := nb 2 }
  | 0x00a => { dest := nb 3 }
  | 0x00b => { dest := nb 4 }
  | 0x010 => let r := addField x1 x2 0; { dest := r.1 ++ [r.2], c := some r.2 }
  | 0x011 => let r := addField x1 x2 ones; { dest := r.1 ++ [r.2] }
  | 0x012 => let r := addField x1 (notField x2) ones; { dest := r.1 ++ [r.2] }
  | 0x014 => let r := addField x1 x2 ones; { dest := [], a := some r.2, conf := some r.2 }
  | 0x015 => let r := addField x1 (notField x2) ones; { dest := [], a := some r.2, conf := some r.2 }
  | 0x016 =>
    let lt := ~~~(addField x1 x2 ones).2
    { dest := List.zipWith (fun a b => merge lt b a) x1 (get (o 3, n)), a := some lt }
  | 0x018 => { dest := mulField x1 (get (o 2, m)), a := (get (o 2, m)).getLast? }
  | 0x01c => { dest := [], conf := (get (o 1, 1)).head? }
  | 0x048 =>
    let p := mulField (get (o 1, 24)) (get (o 2, 32))
    { dest := (addField (p.drop 32) (notField (get (o 3, 24))) ones).1, free := top (o 1, 24) ||| top (o 2, 32) }
  | 0x058 =>
    let a := mulField (get (o 1, 24)) (get (o 1, 24))
    let b := mulField (get (o 2, 24)) (get (o 2, 24))
    let r := addField a b 0
    { dest := r.1 ++ [r.2, 0], free := top (o 1, 24) ||| top (o 2, 24) }
  | _ => { dest := [] }

/-- Write a field. -/
def Braid.writeField (b : Braid) (k : Strip) (addrs : List Nat) (vals : List Plane) (prov : Bool) : Braid :=
  (addrs.zip vals).foldl (fun (b : Braid) x => b.write k x.1 x.2 prov) b

/-- Write free values into a field. -/
def Braid.writeFree (b : Braid) (k : Strip) (addrs : List Nat) (seed : Nat) (prov : Bool) : Braid :=
  b.writeField k addrs (addrs.map (fun p => Config.freePlane seed (planeKey k p))) prov

/-- The writes of an entry in one strip: its results, or free values where they are open. `open_` opens them all. -/
def Braid.writeRom (b : Braid) (k : Strip) (h : RomShape) (r : RomResult) (open_ prov : Bool) (seed : Nat) : Braid :=
  let addrs := fieldAddrs h.dest.1 h.dest.2
  let m := if open_ then ones else r.free
  let vals := List.zipWith (fun p v => merge m (Config.freePlane seed (planeKey k p)) v) addrs r.dest
  let pick (i : Nat) (v : Plane) : Plane := if open_ then Config.freePlane seed (65536 + 2 * k.val + i) else v
  let b := b.writeField k addrs vals prov
  let b := h.others.foldl (fun (b : Braid) f => b.writeFree k (fieldAddrs f.1 f.2) seed prov) b
  let b := match r.c with
    | some c => b.writeC k (pick 0 c) prov
    | none => b
  match r.a with
  | some a => b.writeA k (pick 1 a) prov
  | none => b

/-- The planes that an entry writes. -/
def RomShape.planes (h : RomShape) : List Nat :=
  (fieldAddrs h.dest.1 h.dest.2 ++ h.others.flatMap (fun f => fieldAddrs f.1 f.2)).eraseDups

/-- The planes that an entry writes and that have no provisional plane yet. -/
def State.freshPlanes (s : State) (k : Strip) (h : RomShape) : List Nat :=
  h.planes.filter (fun p => (Mem.entry s.braid.prov (planeKey k p)).isNone)

/-- Whether the provisional planes suffice for the entry's writes in the partition of `t` (R202). -/
def State.romRoom (s : State) (t : Ctx) (h : RomShape) : Bool :=
  match s.partition t with
  | [] => true
  | k :: _ =>
    decide (s.braid.allocated k.val + (s.freshPlanes k h).length ≤ 8)

/-- In FIX a word executes one step, so what an entry of several steps leaves rests on words that the release keeps to itself
(R164, R378; log 87, DESIGN CHOICE). The SELFTEST entries and ANY are the same in both timings. -/
def StrandOp.romOpen (o : StrandOp) (e : Nat) : Bool := o.fix && decide (e < 0x3e0) && decide (e ≠ 0x01c)

/-- The steps of an entry; a free number where the table gives none (log 7, DESIGN CHOICE). Those that the op has executed stand. -/
def StrandOp.romSteps (o : StrandOp) (e : Nat) (seed : Nat) : Nat :=
  let n := (romShape e o.slots).steps
  Nat.max o.ix (if o.romOpen e then Config.freeNat seed 2 % 262144 else n.getD (Config.freeNat seed 2 % 262144))

/-- The entry's writes in every strip of the partition, from the values before it; and its Confluence step. The entry executes `n` steps
in all, of which the op has counted `ix`. With `cut` it ends before its end, and what it writes is open. -/
def State.romWrite (s : State) (t : Ctx) (o : StrandOp) (e : Nat) (n : Nat) (cut : Bool) : State × StrandOp :=
  let h := romShape e o.slots
  let (seed, s) := s.takeFree
  let strips := s.partition t
  let results := strips.map (fun k =>
    (k, romResult e o.slots (fun f => s.braid.field k f)
      (fun d p => s.operandB t k d p (s.runNs t o k) (s.runEw t o k))))
  let fx := o.romOpen e
  let b := results.foldl (fun (b : Braid) x => b.writeRom x.1 h x.2 (cut || fx || h.clash) o.spec seed) s.braid
  let s := ({ s with braid := b }).countSteps t (n - o.ix)
  let o := { o with steps := o.steps + (n - o.ix) }
  let hits := results.filter (fun x => match x.2.conf with
    | some r => decide (r ≠ 0)
    | none => false)
  if results.any (fun x => x.2.conf.isSome) then
    (s, { o with
      conf := some (o.conf.getD false || (if fx then decide (Config.freeNat seed 6 % 2 = 1) else !hits.isEmpty)),
      shares := if fx then BitVec.ofNat 16 (Config.freeNat seed 7)
        else hits.foldl (fun (a : BitVec 16) x => a ||| (1#16 <<< x.1.val)) o.shares })
  else (s, o)

/-! ### Running an entry -/

/-- The ROM entry returns to the word after its micro-call, or ends the op (R161). What the body leaves in the counters and, after a
micro-call, in the slots that name planes is open; at the op's end so are the micro-PC and the micro-stack (log 33, DESIGN CHOICE). -/
def StrandOp.romReturn (o : StrandOp) (seed : Nat) : StrandOp :=
  match o.stack with
  | [] =>
    { o with
      ended := .done, ix := 0, upc := BitVec.ofNat 12 (Config.freeNat seed 5), mci := Config.freeNat seed 3 % 2048,
      mco := Config.freeNat seed 4 % 2048, stack := List.replicate (Config.freeNat seed 6 % 5) 0 }
  | a :: rest =>
    { o with
      upc := a, stack := rest, ix := 0, mci := Config.freeNat seed 3 % 2048, mco := Config.freeNat seed 4 % 2048,
      slots := Vector.ofFn (fun i =>
        if i.val < 4 then BitVec.ofNat 11 (Config.freeNat seed (8 + i.val) % 2040) else o.slots[i]) }

/-- The outcome after an entry has completed. -/
def State.romDone (s : State) (t : Ctx) (o : StrandOp) : Tick :=
  let (seed, s) := s.takeFree
  let o := o.romReturn seed
  if o.ended = .done then .over (s.setOp t o) else .go s o

/-- INH: plane O0 takes the hold buffer, provisionally (R148, R153). -/
def State.romInh (s : State) (t : Ctx) (o : StrandOp) : Tick :=
  if 262144 ≤ o.steps then .over (s.raiseOp t o 0x32)
  else if s.hbr t then
    if !s.provRoom t (o.slots[0].toNat % 2040) then .over (s.raiseOp t o 0x30)
    else
      let (s, o) := s.unstall t o
      let b := (s.partition t).foldl (fun (b : Braid) k =>
        b.write k (o.slots[0].toNat % 2040) (s.strip k).inlet.hold true) s.braid
      ((({ s with braid := b }).countSteps t 1).readHolds t).romDone t { o with steps := o.steps + 1, readHold := true }
  else .over (s.stallOp t o .inlet)

/-- The strip that refuses a capture of OUTP: n > 4 raises OUTLETO at the fifth, at the lowest strip (Table SL-4). -/
def State.outpRefusal (s : State) (t : Ctx) (o : StrandOp) : Option Strip :=
  match s.outletRefusal t true with
  | some j => some j
  | none => if 4 ≤ o.ix then (s.partition t).head? else none

/-- OUTP: one capture and release of plane O1 + ix, or the end (R150, R152). -/
def State.romOutp (s : State) (t : Ctx) (o : StrandOp) : Tick :=
  if o.slots[7].toNat ≤ o.ix then s.romDone t o
  else if 262144 ≤ o.steps then .over (s.raiseOp t o 0x32)
  else
    match s.outpRefusal t o with
    | some j => .over (s.outleto t o j true)
    | none =>
      if s.outletWaits t then .over (s.stallOp t o .outlet)
      else
        let (s, o) := s.unstall t o
        let p := (o.slots[1].toNat + o.ix) % 2040
        let s := (s.outletAct t true true (fun k => s.braid.plane k p)).countSteps t 1
        .go s { o with ix := o.ix + 1, steps := o.steps + 1 }

/-- The partition is one run of four strips (FFT8K). -/
def State.fourRun (s : State) (t : Ctx) : Bool :=
  match s.partition t with
  | [a, b, c, d] => decide (b.val = a.val + 1) && decide (c.val = b.val + 1) && decide (d.val = c.val + 1)
  | _ => false

/-- The steps that a speculated entry executes before the one that needs a ninth provisional plane, with `room` planes left: a step
writes one plane at most. COPY to SHW write a plane a step; ADD and SUBC rewrite the first plane in their first two steps (Worked case
PB-1). Of the others the release settles it (R378; log 147, DESIGN CHOICE). -/
def stallSteps (e room n seed : Nat) : Nat :=
  if 1 ≤ e ∧ e ≤ 0x00b then room
  else if e = 0x010 ∨ e = 0x011 then (if room = 0 then 0 else room + 1)
  else room + Config.freeNat seed 2 % (n - room)

/-- A speculated entry stalls before the step that needs a ninth provisional plane (R202): eight stand, and the steps before it have
executed. What they leave in the planes is seen by none before the entry has ended, so the planes keep their values here. -/
def State.romStall (s : State) (t : Ctx) (o : StrandOp) (h : RomShape) (n : Nat) : State :=
  match s.partition t with
  | [] => s.stallOp t o .prov
  | k :: _ =>
    let room := 8 - s.braid.allocated k.val
    let (seed, s) := s.takeFree
    let done := Nat.max o.ix (stallSteps o.upc.toNat room n seed)
    let fill := (s.freshPlanes k h).take room
    let b := (s.partition t).foldl (fun (b : Braid) k => fill.foldl (fun b p => b.write k p (b.plane k p) true) b) s.braid
    (({ s with braid := b }).countSteps t (done - o.ix)).stallOp t { o with ix := done, steps := o.steps + (done - o.ix) } .prov

/-- The ROM entry at the op's micro-PC. -/
def State.romTick (s : State) (t : Ctx) (o : StrandOp) : Tick :=
  let e := o.upc.toNat
  if e = 0x020 then s.romInh t o
  else if e = 0x021 then s.romOutp t o
  else if e = 0x050 ∧ s.fourRun t = false then
    .over (({ s with sluice := { s.sluice with slent := satInc s.sluice.slent } }).raiseOpCause t o (plainCause causeSlent 0))
  else
    let h := romShape e o.slots
    let n := o.romSteps e s.free
    if o.spec && !s.romRoom t h then .over (s.romStall t o h n)
    else
      let (s, o) := s.unstall t o
      let long := decide (262144 < o.steps + (n - o.ix))
      let r := s.romWrite t o e (if long then o.ix + (262144 - o.steps) else n) long
      if long then .over (r.1.raiseOp t r.2 0x32) else r.1.romDone t r.2

/-- The sequencer acts up to `fuel` times. Log 19, DESIGN CHOICE. -/
def State.runOp (s : State) (t : Ctx) : (fuel : Nat) → StrandOp → State
  | 0, o => s.setOp t o
  | fuel + 1, o =>
    match s.microTick t o with
    | .over s' => s'
    | .go s' o' => s'.runOp t fuel o'
    | .call s' o' =>
      match s'.romTick t o' with
      | .over s'' => s''
      | .go s'' o'' => s''.runOp t fuel o''
      | .call s'' o'' => s''.setOp t o''

end Sys2Proof.Machine
end

