-- ==== Sys2Proof/Machine/Strands.lean ====
section
/-! DEFINITION. STRAND with its checks (R183, R139, R158), the end of a strand op (R141), Confluence results (R143), the
resolution of a speculation (R203, R204), abandoned shifts (R153, R213) and Sluice parity (R170). -/

namespace Sys2Proof.Machine

/-- Actions of the sequencer in one command; an op that needs more goes on in the idle ticks that follow (log 34, DESIGN CHOICE). -/
def opFuel : Nat := 524288

/-! ### Starting an op -/

/-- A fresh op at entry `e` with the given slots (R158, R164, R142). -/
def State.newOp (s : State) (t : Ctx) (e : BitVec 11) (slots : Vector (BitVec 11) 8) (spec : Bool) : StrandOp :=
  { entry := e, slots0 := slots, slots := slots, upc := entryAddr e, stack := [], mci := slots[7].toNat,
    mcil := slots[7].toNat, mco := slots[6].toNat, ix := 0, sample := none, steps := 0, fix := s.fixNow t,
    ns := s.edgeModes.1, ew := s.edgeModes.2, shift := s.shiftMark e, stall := .no, stallAt := s.now, ended := .running,
    conf := none, shares := 0, readHold := false, spec := spec }

/-- The open buffers as they stand when an op starts. -/
def State.saveOutlets (s : State) (t : Ctx) : State :=
  (s.partition t).foldl (fun s k => s.modOutlet k (fun (o : Outlet) => { o with saved := o.opened })) s

/-- An op that meets a plane parity error in strip `k` (R155): it has executed an open number of words; what a ROM body
has written of its planes is open (R378; log 35, DESIGN CHOICE). It does not commit, and the strip goes offline. -/
def State.parityOp (s : State) (t : Ctx) (o : StrandOp) (k : Strip) : State :=
  let (n, s) := s.takeFree
  let s := if !s.byContract o.upc then s.runOp t (Config.freeNat n 5 % opFuel) o
    else if o.shift then s
    else (s.romWrite t o o.upc.toNat (Config.freeNat n 5 % ((romShape o.upc.toNat o.slots).steps.getD 262144 + 1)) true).1
  ((if (s.ctx t).state = .halted then s else s.abortOp t).stripOffline k).levelEvent t

/-- Start an op (R158, R197). -/
def State.startOp (s : State) (t : Ctx) (e : BitVec 11) (slots : Vector (BitVec 11) 8) (spec : Bool)
    (par : Option Strip) : State :=
  let s := s.saveOutlets t
  let o := s.newOp t e slots spec
  match par with
  | some k => if s.inPart t k.val then s.parityOp t o k else s.runOp t opFuel o
  | none => s.runOp t opFuel o

/-- When no op is under way, the STRAND that waits behind it starts (R183). -/
def State.nextOp (s : State) (t : Ctx) : State :=
  let c := s.ctx t
  match c.sop, c.queued with
  | none, some q =>
    if c.live then
      (s.modCtx t (fun c => { c with queued := none })).startOp t q.entry q.slots q.spec q.parity
    else s
  | _, _ => s

/-- An op that stalls for `why` tries again. -/
def State.resumeOp (s : State) (t : Ctx) (why : Stall) : State :=
  match (s.ctx t).sop with
  | some o => if o.stall = why ∧ o.ended = .running then (s.runOp t opFuel o).nextOp t else s
  | none => s

/-- An op that has used up its actions goes on. -/
def State.goOnOp (s : State) (t : Ctx) : State :=
  match (s.ctx t).sop with
  | some o => if o.stall = .no ∧ o.ended = .running then (s.runOp t opFuel o).nextOp t else s
  | none => s

/-! ### STRAND -/

/-- OP0 to OP7 from the words below m: set bits in ascending order take them in order (R183). -/
def takeOps (m : Nat) : List (Fin 8) → List Word → Vector (BitVec 11) 8 → Vector (BitVec 11) 8
  | [], _, ops => ops
  | k :: ks, vs, ops =>
    if m.testBit k.val then takeOps m ks (vs.drop 1) (ops.set k ((vs.getD 0 0).extractLsb' 0 11))
    else takeOps m ks vs ops

/-- How many bits of m[7:0] are set. -/
def maskCount (m : Word) : Nat := ((List.finRange 8).filter (fun k => m.getLsbD k.val)).length

/-- Whether entry `e` raises SLENT at STRAND (R158; FFT8K, Table SL-4). -/
def State.badEntry (s : State) (t : Ctx) (e : BitVec 11) : Bool :=
  if e.getLsbD 10 then !s.inAllotment t (0xc00 + e.toNat % 1024)
  else !romListed e.toNat || (decide (e.toNat = 0x050) && s.byContract 0x050 && !s.fourRun t)

/-- STRAND e (R183). Log 41, DEDUCED. -/
def State.strandBody (s : State) (t : Ctx) (e : BitVec 11) (par : Option Strip) : Res Flow :=
  let word := longWord 0x1b e
  let c := s.ctx t
  match c.arch.ds with
  | [] => .raise s (syncCause causeDsunf word)
  | m :: rest =>
    if rest.length < maskCount m then .raise s (syncCause causeDsunf word)
    else
      let ops := takeOps m.toNat (List.finRange 8) rest c.arch.ops
      if ops.toList.any (fun v => decide (0x7f8 ≤ v.toNat)) then .raise s (syncCause causePlanex word)
      else if s.badEntry t e then
        .raise { s with sluice := { s.sluice with slent := satInc s.sluice.slent } } (syncCause causeSlent word)
      else if c.queued.isSome then .stall s
      else
        let full := match c.spec with
          | some sp => decide (24 ≤ sp.strands)
          | none => false
        if full then .stall s
        else
          let s := s.modCtx t (fun c =>
            { c with
              arch := { c.arch with ds := rest.drop (maskCount m), ops := ops },
              spec := c.spec.map (fun sp => { sp with strands := sp.strands + 1 }) })
          let spec := c.spec.isSome
          if c.sop.isSome then
            .ok (s.modCtx t (fun c => { c with queued := some { entry := e, slots := ops, spec := spec, parity := par } })) .seq
          else .ok (s.startOp t e ops spec par) .seq

/-- Issue STRAND e: a shift is a barrier of run-ahead (Table PB-3). -/
def State.strand (s : State) (t : Ctx) (e : BitVec 11) (par : Option Strip) : State :=
  s.issue t { word := longWord 0x1b e, plain := true, barrier := s.shiftMark e } (fun s => s.strandBody t e par)

def execStrandOpenRegion (t : Ctx) (e : BitVec 11) (par : Option Strip) (s : State) : Out := .next (s.strand t e par)
def execCopy (t : Ctx) (par : Option Strip) (s : State) : Out := .next (s.strand t 0x001 par)
def execRomNot (t : Ctx) (par : Option Strip) (s : State) : Out := .next (s.strand t 0x002 par)
def execRomAnd (t : Ctx) (par : Option Strip) (s : State) : Out := .next (s.strand t 0x003 par)
def execRomOr (t : Ctx) (par : Option Strip) (s : State) : Out := .next (s.strand t 0x004 par)
def execRomXor (t : Ctx) (par : Option Strip) (s : State) : Out := .next (s.strand t 0x005 par)
def execSet (t : Ctx) (par : Option Strip) (s : State) : Out := .next (s.strand t 0x006 par)
def execClr (t : Ctx) (par : Option Strip) (s : State) : Out := .next (s.strand t 0x007 par)
def execShn (t : Ctx) (par : Option Strip) (s : State) : Out := .next (s.strand t 0x008 par)
def execShe (t : Ctx) (par : Option Strip) (s : State) : Out := .next (s.strand t 0x009 par)
def execShs (t : Ctx) (par : Option Strip) (s : State) : Out := .next (s.strand t 0x00a par)
def execShw (t : Ctx) (par : Option Strip) (s : State) : Out := .next (s.strand t 0x00b par)
def execRomAdd (t : Ctx) (par : Option Strip) (s : State) : Out := .next (s.strand t 0x010 par)
def execSubc (t : Ctx) (par : Option Strip) (s : State) : Out := .next (s.strand t 0x011 par)
def execRomSub (t : Ctx) (par : Option Strip) (s : State) : Out := .next (s.strand t 0x012 par)
def execCmpc (t : Ctx) (par : Option Strip) (s : State) : Out := .next (s.strand t 0x014 par)
def execCmp (t : Ctx) (par : Option Strip) (s : State) : Out := .next (s.strand t 0x015 par)
def execMaxc (t : Ctx) (par : Option Strip) (s : State) : Out := .next (s.strand t 0x016 par)
def execRomMul (t : Ctx) (par : Option Strip) (s : State) : Out := .next (s.strand t 0x018 par)
def execAny (t : Ctx) (par : Option Strip) (s : State) : Out := .next (s.strand t 0x01c par)
def execInh (t : Ctx) (par : Option Strip) (s : State) : Out := .next (s.strand t 0x020 par)
def execOutp (t : Ctx) (par : Option Strip) (s : State) : Out := .next (s.strand t 0x021 par)
def execDec128 (t : Ctx) (par : Option Strip) (s : State) : Out := .next (s.strand t 0x040 par)
def execScale (t : Ctx) (par : Option Strip) (s : State) : Out := .next (s.strand t 0x048 par)
def execFft8k (t : Ctx) (par : Option Strip) (s : State) : Out := .next (s.strand t 0x050 par)
def execMagsq (t : Ctx) (par : Option Strip) (s : State) : Out := .next (s.strand t 0x058 par)
def execEnvdm (t : Ctx) (par : Option Strip) (s : State) : Out := .next (s.strand t 0x060 par)
def execResamp (t : Ctx) (par : Option Strip) (s : State) : Out := .next (s.strand t 0x068 par)
def execSelftest (t : Ctx) (k : Fin 16) (par : Option Strip) (s : State) : Out :=
  .next (s.strand t (BitVec.ofNat 11 (0x3e0 + k.val)) par)

/-! ### The end of an op, and its result -/

/-- The op that a BRC tests has ended and its result has arrived: no op from before the BRC is left (R200). -/
def Context.testedDone (c : Context) : Bool :=
  (match c.sop with
   | some o => o.spec
   | none => true)
  && (match c.queued with
      | some q => q.spec
      | none => true)
  && c.rerun.isNone && c.results.all (fun r => r.spec)

/-- A speculation whose tested result stands may resolve. -/
def State.settle (s : State) (t : Ctx) : State :=
  s.modCtx t (fun c => { c with spec := c.spec.map (fun sp => { sp with arrived := sp.arrived || c.testedDone }) })

/-- Captured buffers are handed for sending, and a hold-buffer read counts (R148, R150). -/
def State.commitShift (s : State) (t : Ctx) (readHold : Bool) : State :=
  let s := (s.partition t).foldl (fun s k => s.modOutlet k (fun (o : Outlet) =>
    { o with ready := o.ready ++ o.inOp, inOp := [], saved := none })) s
  if readHold then (s.partition t).foldl (fun s k => s.modInlet k (fun (i : Inlet) => { i with unread := i.unread && i.newer })) s
  else s

/-- The end of a strand op (R141, R143, R183): outside speculation it commits. Its Confluence result goes on its way,
the STRAND behind it starts, and WAIT event 1 may rise. Log 16, DEDUCED. -/
def State.endOp (s : State) (t : Ctx) (o : StrandOp) : State :=
  let s := (if o.spec then s else (s.commitProv t).commitShift t o.readHold).keepSeq t
  let s := s.modCtx t (fun c =>
    { c with
      sop := none,
      results := match o.conf with
        | some v => c.results ++ [{ value := v, shares := o.shares, spec := o.spec }]
        | none => c.results })
  ((s.nextOp t).settle t).levelEvent t

def execStrandOpEnd (t : Ctx) (s : State) : Out :=
  match (s.ctx t).sop with
  | some o => .next (if o.ended = .done then s.endOp t o else s)
  | none => .next s

/-- BRCFL of the partition's strips (R143). -/
def State.showResult (s : State) (t : Ctx) (r : ConfResult) : State :=
  (s.partition t).foldl (fun s k => s.modStrip k (fun x =>
    { x with share := r.shares.getLsbD k.val, result := r.value })) s

/-- CONFLUENCE_RESULT: the oldest result arrives (R143). While a tested result waits for its speculation to resolve, no
later one arrives. -/
def execConfluenceResult (t : Ctx) (s : State) : Out :=
  let c := s.ctx t
  let held := match c.spec with
    | some sp => sp.arrived
    | none => false
  match c.results with
  | [] => .next s
  | r :: rest =>
    if held then .next s
    else
      let s := (s.modCtx t (fun c => { c with result := r.value, results := rest })).showResult t r
      .next ((s.settle t).levelEvent t)

/-! ### Speculation -/

/-- A right prediction (R203). A held fault or cause of a strand op comes before that of a later instruction, which then has not
executed and meets its cause again. -/
def State.specRight (s : State) (t : Ctx) (sp : Spec) : State :=
  let s := (s.commitProv t).commitStores t
  let s := s.modCtx t (fun c =>
    { c with
      spec := none, sop := c.sop.map (fun o => { o with spec := false }),
      queued := c.queued.map (fun q => { q with spec := false }),
      results := c.results.map (fun r => { r with spec := false }) })
  match (s.ctx t).sop.elim .running (·.ended) with
  | .faulted code => s.opFault t code ((s.ctx t).sop.elim 0 (·.entry)) true
  | .raised code qual => s.opCause t { code := code, qual := qual, slot := 0, data := none, ms := false, sp := true }
  | _ =>
    let s := s.resumeOp t .prov
    match sp.held with
    | some r => s.takeHere t r
    | none => s

/-- SPECULATION_RESOLVE (R203, R204). -/
def execSpeculationResolve (t : Ctx) (s : State) : Out :=
  match (s.ctx t).spec with
  | none => .next s
  | some sp =>
    if !sp.arrived then .next s
    else if (s.ctx t).result = sp.taken then .next (s.specRight t sp)
    else
      .next ((s.rollBack t sp sp.other).modUnit (s.ctx t).unit (fun u => { u with miss := satInc u.miss }))

/-! ### Abandoned shifts, and Sluice parity -/

/-- A swap of the context's unit, or a stop, is pending (R153). -/
def State.abandons (s : State) (t : Ctx) : Bool :=
  decide (s.power.phase = .stopping) || (s.running t && (s.hunit (s.ctx t).unit).swapPend)

/-- SHIFT_ABANDON (R153, R213): a shift stalled for more than 64 cycles of CK_A while a swap or a stop is pending. After a swap it runs
again from the record of its entry and slot values. -/
def execShiftAbandon (t : Ctx) (s : State) : Out :=
  let c := s.ctx t
  match c.sop with
  | none => .next s
  | some o =>
    if o.shift && (o.stall == .inlet || o.stall == .outlet) && s.abandons t && decide (64 < s.akCycles (s.now - o.stallAt)) then
      let s := ((s.unstall t o).1).abortOp t
      let s := (s.partition t).foldl (fun s k => s.modStrip k (fun x => { x with abnd := satInc x.abnd })) s
      let s := s.modUnit c.unit (fun u => { u with abnd := satInc u.abnd })
      .next (s.modCtx t (fun c => { c with rerun := some (o.entry, o.slots0) }))
    else .next s

/-- The tenant whose allotment holds an open-region word. -/
def State.allotmentOf (s : State) (a : Nat) : Option Ctx := allCtx.find? (fun t => s.inAllotment t a)

/-- Whether the strand op `o` fetches the word at `a`: one that its entry reaches, or a patched word inside a ROM body, whose words are
the release's (R169, R378; log 148, DESIGN CHOICE). -/
def State.fetches (s : State) (o : StrandOp) (a : BitVec 12) : Bool :=
  let words := s.reach 32768 [(entryAddr o.entry).toNat] []
  words.contains a.toNat || ((s.patchWord a).isSome && decide (a.toNat < 0xc00) && words.any (fun w => decide (w < 0xc00)))

/-- The loader's read of the two units of a word's copy in EB0, over its NI with QC 0, and whether they are correctable (R170, R255).
Which units hold it the spec does not say: a free value (log 148, DESIGN CHOICE). -/
def State.readCopy (s : State) (ecc : Ecc) : Bool × State :=
  let (n, s) := s.takeFree
  let p : Phys := { eddy := true, word := 2 * (Config.freeNat n 6 % 8191) }
  let us := (unitsFrom p 2).mapIdx (fun i x => (x, if i = 0 then ecc else .clean))
  let x := State.readsAt true us s.cycle ((s.forward 0x14 p.ni 1).forward p.ni 0x14 3)
  (!x.1.any (·.2), x.2)

/-- A word reloaded from its copy (R170). -/
def State.reloadWord (s : State) (n : UnitId) : State :=
  ({ s with sluice := { s.sluice with perr := satInc s.sluice.perr } }).countFault 0x45 n.val

/-- An uncorrectable copy (R170): C2 for the tenant whose allotment holds an open-region word, C4 for a patch word. -/
def State.copyLost (s : State) (n : UnitId) (a : BitVec 12) : State :=
  let s : State := { s with sluice := { s.sluice with unc := satInc s.sluice.unc } }
  if 0xc00 ≤ a.toNat then
    match s.allotmentOf a.toNat with
    | some t =>
      let (k, s) := s.takeFree
      (s.recordCause t 0x33 (Config.freeWord k) 0 false).haltCtx t 0x33 0xff (a.toNat - 0xc00 - s.sluice.base[t]) (some n)
    | none => s
  else
    match s.patchWord a with
    | some w => s.takeFault 0x60 0xff w none none
    | none => s

/-- SLUICE_PARITY_RELOAD (R170): a parity error on a fetch of unit `n`, of an open-region or patch RAM word; `ecc` is the SECDED outcome
of its copy. A word that the unit's strand op does not fetch, and a ROM word, which has no parity, meet none. -/
def execSluiceParityReload (n : UnitId) (addr : BitVec 12) (ecc : Ecc) (s : State) : Out :=
  match s.unitOp n with
  | some o =>
    if s.fetches o addr && (decide (0xc00 ≤ addr.toNat) || (s.patchWord addr).isSome) then
      let x := s.readCopy ecc
      .next (if x.1 then x.2.reloadWord n else x.2.copyLost n addr)
    else .next s
  | none => .next s

end Sys2Proof.Machine
end

