-- ==== Sys2Proof/Machine/Settings.lean ====
section
/-! DEFINITION. Settings that several blocks settle together: range claims (Table CT-3), DVFS floors and targets (R345),
sentinel thresholds (R347), effective priority (R267), and the tenants that read a channel. -/

namespace Sys2Proof.Machine

/-! ### Range claims (R128) -/

def claimAuto : BitVec 2 := 1
def claimPin16 : BitVec 2 := 2
def claimPin64 : BitVec 2 := 3

def Channel.hasClaim (c : Channel) (v : BitVec 2) : Bool := allCtx.any (fun t => decide (c.claims[t] = v))

/-- The row of Table CT-3 that applies. -/
def Channel.row (c : Channel) : Nat :=
  if c.hasClaim claimPin16 && c.hasClaim claimPin64 then 2
  else if c.hasClaim claimPin16 || c.hasClaim claimPin64 then 1
  else if c.hasClaim claimAuto then 3
  else 4

/-- The range that the claims and the range loop give: true for ±64 g. -/
def Channel.wanted (c : Channel) : Bool :=
  match c.row with
  | 1 => c.hasClaim claimPin64
  | 2 => true
  | 3 => c.loopSel
  | _ => false

/-- Tenants whose inlets take channel `ch`. -/
def State.takesChannel (s : State) (ch : Nat) (t : Ctx) : Bool :=
  allStrips.any (fun k => s.ownsStrip t k && (s.strip k).inlet.en && decide ((s.strip k).inlet.src.toNat = ch))

/-! ### DVFS (R345) -/

/-- GAFLOORt counts while the context is neither idle nor halted. -/
def State.floorOf (s : State) (t : Ctx) : Nat := if (s.ctx t).live then s.gauge.floors[t].toNat else 0

/-- The floor in force. -/
def State.floorNow (s : State) : Nat :=
  allCtx.foldl (fun m t => Nat.max m (s.floorOf t)) (if s.bursting then 14 else 0)

/-- The target step. -/
def State.target (s : State) : Nat :=
  Nat.min s.gauge.ceiling (if s.proofOpen then 10 else Nat.max s.gauge.demand s.floorNow)

/-- The change of operating point under way: its target as taken, or the target that the settings have moved to. -/
def State.changing (s : State) : Option Nat :=
  match s.gauge.moving with
  | some j => some j
  | none => if !s.modes.parked && decide (s.target ≠ s.gauge.step) then some s.target else none

/-- A change begins when the target differs and none is under way (R338). -/
def State.retarget (s : State) : State := { s with gauge := { s.gauge with moving := s.changing } }

/-- VA in millivolts at a step (Table GA-2). -/
def vaOf (step : Nat) : Nat :=
  #[650, 660, 670, 680, 690, 705, 720, 735, 750, 770, 790, 810, 835, 865, 900].getD step 900

/-! ### Sentinel thresholds (R347) -/

/-- The floor of tenant `t` on cell `c`. -/
def State.sflOf (s : State) (t : Ctx) (c : CellId) : Nat := s.gauge.sfl[t][c].toNat

/-- The highest floor over the tenants whose grant holds SENTINEL. -/
def State.sflMax (s : State) (c : CellId) : Nat :=
  allCtx.foldl (fun m t => if s.granted t mSentinel then Nat.max m (s.sflOf t c) else m) 0

/-- The cell's threshold in 2 mg units. -/
def State.threshold (s : State) (c : CellId) : Nat := Nat.max (s.sflMax c) s.gauge.cells[c].est.toNat

/-! ### Weir -/

/-- Whether context `t` owns class `q` (R259, R367). -/
def State.ownsClass (s : State) (t : Ctx) (q : Nat) : Bool :=
  q != 0 && decide ((s.cls (BitVec.ofNat 4 q)).recd.owner = some t)

/-! ### The PROOF schedule (R109) -/

/-- Of a window that ended at `stop` after `len` ms, the nanoseconds that lie in the last 3 600 s. -/
def windowPart (now stop len : Nat) : Nat := stop - Nat.max (stop - len * ms) (now - 3600 * sec)

/-- Milliseconds of window in the last 3 600 s (PRFUSED). -/
def State.proofUsed (s : State) : Nat :=
  s.modes.usedLog.foldl (fun n e => n + windowPart s.now e.1 e.2.1) 0 / ms
  + (match s.modes.window with
     | some w => if w.openAt ≤ s.now ∧ s.proofOpen then (Nat.min s.now w.closeAt - w.openAt) / ms else 0
     | none => 0)

/-! ### Lost buddies -/

/-- The buddies that are lost, in ascending index. -/
def State.lostBuddies (s : State) : List (BitVec 6) :=
  ((List.range 64).map (BitVec.ofNat 6)).filter (fun b => s.mill.buddies.contains b && (s.socket b).lost)

end Sys2Proof.Machine
end

