-- ==== Sys2Proof/Machine/Regs.lean ====
section
/-! DEFINITION. The register space (R364 to R371): decoding an index, the access matrix of Table HR-3, and what every
register of the map reads. Writes stand in Access.lean. -/

namespace Sys2Proof.Machine

/-! ### Words from fields -/

/-- A word from fields given as (lowest bit, width, value). -/
def pack (fs : List (Nat × Nat × Nat)) : Word := BitVec.ofNat 36 (fs.foldl (fun a f => a + f.2.2 % 2 ^ f.2.1 * 2 ^ f.1) 0)

def b2n (b : Bool) : Nat := if b then 1 else 0

/-- A mask of the indices that `p` selects. -/
def maskOf (n : Nat) (p : Nat → Bool) : Nat := (List.range n).foldl (fun a i => if p i then a + 2 ^ i else a) 0

/-- The low word and the high part of a 64-bit value (as CTCLPIX). -/
def lowWord (x : Nat) : Word := BitVec.ofNat 36 x
def highWord (x : Nat) : Word := BitVec.ofNat 36 (x / 2 ^ 36)

/-- An integer in `w` bits, saturating, as a word's low bits. -/
def satInt (w : Nat) (v : Int) : Nat :=
  let hi : Int := 2 ^ (w - 1) - 1
  let v' := max (-(2 ^ (w - 1) : Int)) (min hi v)
  (v' % 2 ^ w).toNat

/-- Four bytes of a digest, first byte in [31:24] (R371). -/
def digestWord (d : BitVec 256) (k : Nat) : Word := BitVec.ofNat 36 (d.toNat / 2 ^ (32 * (7 - k)) % 2 ^ 32)

/-! ### The map (Table HR-1) -/

/-- Blocks of the register space. -/
inductive Block
  | context | unit | sluice | strip | inOut | channel | ctCommon | coeff | region | mnCommon | route | router
  | weirClass | weirCommon | bank | port | ringMap | ptp | gauge | lock | faults | modes
  deriving DecidableEq, Repr

/-- Rows of Table HR-1: base, instances, size, block. -/
def regMap : List (Nat × Nat × Nat × Block) :=
  [(0x0000, 16, 64, .context), (0x0400, 4, 48, .unit), (0x04c0, 1, 40, .sluice), (0x0500, 16, 32, .strip),
   (0x0700, 16, 12, .inOut), (0x0800, 12, 48, .channel), (0x0a40, 1, 32, .ctCommon), (0x0c00, 12, 64, .coeff),
   (0x1000, 16, 24, .region), (0x1180, 1, 64, .mnCommon), (0x1200, 24, 32, .route), (0x1500, 16, 8, .router),
   (0x1600, 16, 24, .weirClass), (0x1780, 1, 32, .weirCommon), (0x1800, 20, 12, .bank), (0x1900, 2, 64, .port),
   (0x1980, 64, 4, .ringMap), (0x1a80, 1, 48, .ptp), (0x1b00, 1, 96, .gauge), (0x1c00, 1, 64, .lock),
   (0x1c40, 1, 48, .faults), (0x1c80, 1, 32, .modes)]

/-- A decoded index (R365). -/
structure RegAddr where
  block : Block
  inst  : Nat
  off   : Nat
  deriving DecidableEq, Repr

/-- decode(i) of R365; none raises HRSX. -/
def decodeIndex (i : BitVec 13) : Option RegAddr :=
  (regMap.find? (fun m => decide (m.1 ≤ i.toNat) && decide (i.toNat < m.1 + m.2.1 * m.2.2.1))).map (fun m =>
    { block := m.2.2.2, inst := (i.toNat - m.1) / m.2.2.1, off := (i.toNat - m.1) % m.2.2.1 })

/-! ### Grants (Table HR-3) -/

/-- Strip `n` as an index. -/
def stripOf (n : Nat) : Strip := Fin.ofNat 16 n

/-- Whether a read is granted to tenant `t`. -/
def State.readGrant (s : State) (t : Ctx) (a : RegAddr) : Bool :=
  match a.block with
  | .context => decide (a.inst = t.val)
  | .strip | .inOut => s.ownsStrip t (stripOf a.inst)
  | .weirClass => decide (a.inst = 0) || s.ownsClass t a.inst
  | .faults => !(decide (0x10 ≤ a.off) && decide (a.off < 0x20)) || decide (a.off = 0x10 + t.val)
  | _ => true

/-- Whether a write is granted to tenant `t`, apart from value-dependent refusals. -/
def State.writeGrant (s : State) (t : Ctx) (a : RegAddr) : Bool :=
  match a.block with
  | .context => decide (a.inst = t.val)
  | .strip | .inOut => s.ownsStrip t (stripOf a.inst) && !(s.strip (stripOf a.inst)).offline
  | .channel => decide (a.off = t.val)
  | .region => decide ((s.region (Fin.ofNat 16 a.inst)).owner = some t)
  | .mnCommon => decide (a.off < 16) && s.ownsStrip t (stripOf a.off)
  | .weirCommon => decide (a.off = t.val)
  | .gauge => decide (a.off = 0x10 + t.val) || decide (a.off = 0x20 + t.val)
  | _ => false

/-! ### Context block (Tables HW-6 and MC-1) -/

def ctxStateCode : CtxState → Nat
  | .idle => 0 | .ready => 1 | .running => 2 | .waiting => 3 | .halted => 4

/-- WIN0 to WIN3 as registers. -/
def Window.reg (w : Window) : Word :=
  pack [(0, 7, w.base.toNat), (7, 7, w.len.toNat), (14, 1, b2n w.valid), (15, 1, b2n w.writable), (16, 1, b2n w.eddy),
    (17, 1, b2n w.shared), (18, 10, w.phys.toNat)]

/-- The deadline of the wait in progress, in ring-time microseconds (WTDL). -/
def State.waitDeadline (s : State) (c : Context) : Word :=
  match c.waiting with
  | some w =>
    match w.deadline with
    | some (.inl d) => BitVec.ofInt 36 (((d : Int) + s.time.offset) / 1000)
    | some (.inr d) => BitVec.ofNat 36 d
    | none => 0
  | none => 0

/-- BCAUSE with PR as it stands (Table PB-5; log 26, DEDUCED). -/
def Context.bcauseNow (c : Context) : Word :=
  c.bcause ||| (if c.pend.isEmpty && c.sync.isEmpty then 0 else 0x400)

/-- RSTAT (Table MC-1). -/
def Arch.rstat (a : Arch) : Word :=
  pack [(0, 5, a.rsh), (5, 5, a.wsh), (10, 1, b2n a.out18), (11, 1, b2n a.conj), (12, 1, b2n a.neg), (13, 1, b2n a.alt),
    (14, 1, b2n a.ova), (15, 1, b2n a.rov), (16, 4, a.acr.toNat / 2 ^ 36), (20, 4, a.aci.toNat / 2 ^ 36)]

/-- The loop, operand and Riffle registers of a context (Table HW-6, 10h to 27h). -/
def Arch.reg (a : Arch) (fz : Bool) (r : Nat) : Word :=
  if r < 0x13 then a.lc[Fin.ofNat 3 (r - 0x10)]
  else if r < 0x16 then a.ls[Fin.ofNat 3 (r - 0x13)].zeroExtend 36
  else if r < 0x19 then a.le[Fin.ofNat 3 (r - 0x16)].zeroExtend 36
  else if r = 0x19 then pack [(0, 2, a.levels), (2, 1, b2n fz)]
  else if r < 0x22 then a.ops[Fin.ofNat 8 (r - 0x1a)].zeroExtend 36
  else
    match r with
    | 0x22 => a.xp.zeroExtend 36
    | 0x23 => a.yp.zeroExtend 36
    | 0x24 => a.xstep.zeroExtend 36
    | 0x25 => a.ystep.zeroExtend 36
    | 0x26 => a.rstat
    | _ => a.rbx.zeroExtend 36

/-- A register of context `t`'s own block. -/
def State.ctxReg (s : State) (t : Ctx) (r : Nat) : Word :=
  let c := s.ctx t
  let a := c.arch
  if 0x10 ≤ r ∧ r < 0x28 then a.reg c.loopfz r
  else
    match r with
    | 0x00 => pack [(0, 3, ctxStateCode c.state), (3, 2, c.unit.val), (5, 5, a.ds.length), (10, 4, a.rs.length),
        (14, 2, a.levels), (16, 1, b2n c.inBell)]
    | 0x01 => pack [(0, 1, b2n a.rswrap), (1, 1, b2n a.rconv), (2, 1, b2n a.sat)]
    | 0x02 => c.ben.zeroExtend 36
    | 0x03 => c.bellv.zeroExtend 36
    | 0x04 => c.bepc.zeroExtend 36
    | 0x05 => c.bcauseNow
    | 0x06 => c.bslot.zeroExtend 36
    | 0x07 => c.bdata
    | 0x08 => a.bk.zeroExtend 36
    | 0x09 => a.src.zeroExtend 36
    | 0x0a => a.dst.zeroExtend 36
    | 0x0b => a.cnt
    | 0x0c => a.crcp.zeroExtend 36
    | 0x0d => pack [(0, 6, a.crcw.toNat), (6, 1, b2n a.crcRefl)]
    | 0x0e => a.crca.zeroExtend 36
    | 0x0f => a.scmask
    | 0x28 => pack [(0, 10, c.lastEv.toNat), (10, 1, b2n c.waiting.isSome)]
    | 0x29 => s.waitDeadline c
    | 0x2a => c.near
    | 0x2b => c.time
    | 0x2c => c.qwgt.zeroExtend 36
    | 0x2d => c.wins[0].reg
    | 0x2e => c.wins[1].reg
    | 0x2f => c.wins[2].reg
    | 0x30 => c.wins[3].reg
    | 0x31 => c.mstart.zeroExtend 36
    | 0x32 => c.pc0.zeroExtend 36
    | 0x33 => pack [(0, 1, b2n c.cap.burst), (1, 1, b2n c.cap.arms), (2, 1, b2n c.cap.capref), (3, 3, c.cap.endr.toNat),
        (8, 28, c.cap.len.toNat)]
    | _ => 0

/-! ### Units and Sluice (Tables PB-8 and SL-6) -/

/-- Provisional planes allocated in the partition of `t`. -/
def State.allocatedOf (s : State) (t : Ctx) : Nat :=
  match s.partition t with
  | k :: _ => s.braid.allocated k.val
  | [] => 0

/-- Run-ahead of the context has stopped at a limit of R202. -/
def Context.runAheadStopped (c : Context) : Bool :=
  match c.spec with
  | none => false
  | some sp => sp.held.isSome || c.opFaulted || c.provStalled || sp.limited

/-- HUSTAT. -/
def State.hustat (s : State) (n : UnitId) : Word :=
  let u := s.hunit n
  match u.ctx with
  | none => pack [(15, 1, b2n u.offline), (16, 1, b2n u.swapPend)]
  | some t =>
    let c := s.ctx t
    pack [(0, 4, t.val), (4, 1, 1), (5, 1, b2n c.spec.isSome), (6, 5, c.spec.elim 0 (·.strands)),
      (11, 4, s.allocatedOf t), (15, 1, b2n u.offline), (16, 1, b2n u.swapPend), (17, 1, b2n c.runAheadStopped)]

def State.unitReg (s : State) (n : UnitId) (r : Nat) : Word :=
  let u := s.hunit n
  if 0x10 ≤ r ∧ r < 0x20 then BitVec.ofNat 36 (satInt 24 ((s.ctx (Fin.ofNat 16 (r - 0x10))).credit / 1000))
  else
    match r with
    | 0x00 => s.hustat n
    | 0x01 => u.spec
    | 0x02 => u.miss
    | 0x03 => u.roll
    | 0x04 => u.held
    | 0x05 => u.swaps
    | 0x06 => u.ovr
    | 0x07 => u.bells
    | 0x08 => pack [(0, 4, u.buffer.length), (4, 4, (u.buffer.filter (·.spec)).length)]
    | 0x09 => u.icm
    | 0x0a => u.abnd
    | _ => 0

/-- SLU0 to SLU3: between ops the micro-sequencer stands as the last op has left it (R157); the FIX state in force is the op's, or the
unit's between ops (R164). -/
def State.sluReg (s : State) (n : UnitId) : Word :=
  let t := s.unitCtx n
  match s.unitOp n with
  | some o => pack [(0, 1, b2n o.fix), (1, 3, o.stack.length), (4, 12, o.upc.toNat), (16, 4, t.elim 0 (·.val)), (20, 1, 1)]
  | none =>
    let q := (s.hunit n).seq
    pack [(0, 1, b2n (t.elim false (fun t => s.fixNow t))), (1, 3, q.stack.length), (4, 12, q.upc.toNat), (16, 4, t.elim 0 (·.val))]

def State.slmcReg (s : State) (n : UnitId) : Word :=
  let q := ((s.unitOp n).map StrandOp.micro).getD (s.hunit n).seq
  pack [(0, 11, q.mci), (11, 11, q.mco), (22, 11, q.mcil)]

def State.sluiceReg (s : State) (r : Nat) : Word :=
  let x := s.sluice
  if r < 4 then s.sluReg (Fin.ofNat 4 r)
  else if r < 8 then s.slmcReg (Fin.ofNat 4 (r - 4))
  else if 0x0c ≤ r ∧ r < 0x1c then
    let t : Ctx := Fin.ofNat 16 (r - 0x0c)
    pack [(0, 10, x.base[t]), (10, 11, x.len[t]), (21, 11, x.loaded[t]), (32, 1, b2n (x.refusedBy.getLsbD t.val))]
  else
    match r with
    | 0x08 => Config.romVersion.zeroExtend 36
    | 0x09 => pack [(0, 7, s.lock.patchEpoch.toNat), (7, 1, b2n s.lock.patchOn), (8, 7, x.map.length),
        (15, 1, b2n s.lock.patchNone)]
    | 0x0a => x.perr
    | 0x0b => x.unc
    | 0x1c => match x.refuse with
        | some (t, w, code) => pack [(0, 4, t.val), (4, 10, w), (14, 6, code), (20, 1, 1)]
        | none => 0
    | 0x1d => pack [(0, 12, x.slent.toNat), (12, 12, x.slstk.toNat), (24, 12, x.slrun.toNat)]
    | _ => 0

/-! ### Braid (Tables BR-9 and BR-10) -/

def State.stripReg (s : State) (k : Strip) (r : Nat) : Word :=
  let x := s.strip k
  match r with
  | 0x00 => pack [(0, 2, x.nsmode.toNat), (2, 1, b2n x.ewwrap)]
  | 0x01 => pack [(0, 4, x.owner.elim 0 (·.val)), (4, 1, b2n x.owner.isSome), (5, 1, b2n x.spare), (6, 1, b2n x.offline),
      (7, 1, b2n s.modes.parked), (8, 8, s.braid.allocated k.val)]
  | 0x02 => pack [(0, 1, b2n x.share), (1, 1, b2n x.result)]
  | 0x03 => x.steps
  | 0x04 => x.stli
  | 0x05 => x.stlo
  | 0x06 => x.abnd
  | 0x07 => x.steal
  | 0x08 => x.perr
  | _ => 0

/-- The record of the plane at INREL (R147). -/
def Inlet.atRel (i : Inlet) : RingPlane := i.planes[(⟨i.rel.toNat, i.rel.isLt⟩ : Fin 256)]

def State.inOutReg (s : State) (k : Strip) (r : Nat) : Word :=
  let i := (s.strip k).inlet
  let o := (s.strip k).outlet
  let p := i.atRel
  match r with
  | 0 => pack [(0, 5, i.src.toNat), (5, 1, b2n i.en), (6, 8, i.lenM1.toNat), (14, 11, i.base.toNat)]
  | 1 => pack [(0, 8, i.wr.toNat), (8, 9, i.count), (17, 1, b2n i.unread), (18, 1, b2n i.cfgerr), (19, 1, b2n p.sijump),
      (20, 1, b2n p.clip), (21, 1, b2n p.settle), (22, 1, b2n p.lane)]
  | 2 => i.rel.zeroExtend 36
  | 3 => lowWord p.si.toNat
  | 4 => highWord p.si.toNat
  | 5 => pack [(0, 24, i.done.toNat), (24, 12, i.lost.toNat)]
  | 7 => pack [(0, 1, b2n o.en), (1, 4, o.qc.toNat), (5, 3, o.used), (8, 1, b2n o.err)]
  | 8 => o.addr.zeroExtend 36
  | 9 => o.end_.zeroExtend 36
  | 10 => pack [(0, 24, o.sent.toNat), (24, 12, o.dropped.toNat)]
  | _ => 0

/-! ### Catchment (Tables CT-4 to CT-8) -/

/-- CTRANGE (Table CT-5). -/
def Channel.range (c : Channel) : Word :=
  let pins := maskOf 16 (fun t => (c.claims[(Fin.ofNat 16 t)]).getLsbD 1)
  pack [(0, 1, b2n c.rng), (1, 2, c.src.toNat), (3, 1, b2n c.pend), (4, 1, b2n c.prng), (5, 1, b2n (decide (0 < c.settle))),
    (6, 1, b2n c.pinconf), (7, 16, pins)]

def State.chanReg (s : State) (ch : Chan) (r : Nat) : Word :=
  let c := s.chan ch
  if r < 16 then c.claims[(Fin.ofNat 16 r)].zeroExtend 36
  else
    match r with
    | 0x10 => c.range
    | 0x11 => c.clip
    | 0x12 => lowWord c.clpix.toNat
    | 0x13 => highWord c.clpix.toNat
    | 0x14 => lowWord c.rchg.toNat
    | 0x15 => highWord c.rchg.toNat
    | 0x16 => c.temp.zeroExtend 36
    | 0x17 => pack [(0, 1, b2n s.ct.lanes[(Fin.ofNat 3 (ch.val / 4))].up), (1, 1, b2n c.calFail), (2, 1, b2n c.calNone),
        (3, 1, b2n c.stact), (4, 1, b2n c.clipNow), (5, 1, b2n s.ct.unlocked)]
    | 0x18 => c.stres.zeroExtend 36
    | 0x19 => lowWord c.stix.toNat
    | 0x1a => highWord c.stix.toNat
    | 0x1b => c.rconf
    | _ => 0

/-- The Catchment common block; CTSIXH is the reader's latch (R369). -/
def State.ctReg (s : State) (t : Ctx) (r : Nat) : Word :=
  match r with
  | 0 => lowWord s.time.si.toNat
  | 1 => (s.ctx t).ctsixh.zeroExtend 36
  | 2 => pack [(0, 1, b2n (decide (s.ptp.state = .locked))), (4, 16, s.ct.trim.toNat), (20, 8, s.ct.changes.toNat)]
  | 3 => s.ct.step
  | 7 => s.ct.die.zeroExtend 36
  | 8 => pack [(0, 12, maskOf 12 (fun i => (s.chan (Fin.ofNat 12 i)).calFail)),
      (12, 12, maskOf 12 (fun i => (s.chan (Fin.ofNat 12 i)).calNone)), (24, 1, b2n s.ct.calDone)]
  | _ =>
    if 4 ≤ r ∧ r < 7 then
      let l := s.ct.lanes[(Fin.ofNat 3 (r - 4))]
      pack [(0, 1, b2n l.up), (1, 23, l.bad.toNat), (24, 12, l.retrains.toNat)]
    else 0

def Coeff.reg (c : Coeff) (r : Nat) : Word :=
  if 0x0c ≤ r ∧ r < 0x1c then c.eq[(Fin.ofNat 16 (r - 0x0c))]
  else
    match r with
    | 0x00 => c.k16
    | 0x01 => c.ofs16
    | 0x02 => c.k64
    | 0x03 => c.ofs64
    | 0x04 => c.tck
    | 0x05 => c.tco
    | 0x06 => c.tref
    | 0x07 => c.stexp16
    | 0x08 => c.stexp64
    | 0x09 => c.calsrc.zeroExtend 36
    | 0x0a => lowWord c.calix.toNat
    | 0x0b => highWord c.calix.toNat
    | 0x1c => c.cxa
    | 0x1d => c.cxb
    | _ => 0

/-! ### Meander (Tables MN-7 and MN-8) -/

def regionStateCode : RegionState → Nat
  | .running => 0 | .parked => 1 | .error => 2 | .blank => 3

def State.regionReg (s : State) (r : Region) (o : Nat) : Word :=
  let x := s.region r
  match o with
  | 0x00 => pack [(0, 4, x.owner.elim 0 (·.val)), (4, 1, b2n x.owner.isSome), (5, 2, regionStateCode (if x.fresh && decide (x.state = .running) then .parked else x.state)),
      (7, 1, b2n (x.reqSlot.isSome || s.mea.queue.contains r)), (8, 2, x.slot.toNat), (10, 1, b2n x.full),
      (11, 1, b2n (s.treeStopped r)), (12, 1, b2n x.cfgerr)]
  | 0x01 => if x.sw then pack [(0, 3, x.newSource.toNat), (3, 8, x.newDiv.toNat), (11, 1, 1)]
      else pack [(0, 3, x.source.toNat), (3, 8, x.divM1.toNat)]
  | 0x02 => x.rslot.zeroExtend 36
  | 0x03 => x.slots.zeroExtend 36
  | 0x04 => x.paddr.zeroExtend 36
  | 0x05 => x.pend.zeroExtend 36
  | 0x06 => pack [(0, 4, x.fifo.length), (4, 4, x.unack), (8, 1, b2n (x.postReady))]
  | 0x07 => pack [(0, 24, x.posted.toNat), (24, 12, x.pdrop.toNat)]
  | 0x08 => pack [(0, 24, x.taps.toNat), (24, 12, x.tlost.toNat)]
  | 0x09 => pack [(0, 18, x.rcnt.toNat), (18, 18, x.rfail.toNat)]
  | 0x0a => BitVec.ofNat 36 (maskOf 36 (fun i => x.outs[(Fin.ofNat 40 i)]))
  | 0x0b => BitVec.ofNat 36 (maskOf 4 (fun i => x.outs[(Fin.ofNat 40 (36 + i))]))
  | _ => 0

def State.mnReg (s : State) (r : Nat) : Word :=
  if r < 16 then pack [(0, 4, s.mea.tapRegion[(Fin.ofNat 16 r)].toNat), (4, 1, b2n (s.mea.tapValid.getLsbD r))]
  else
    match r with
    | 0x10 => pack [(0, 1, b2n s.mea.cfgDone), (1, 16, maskOf 16 (fun i => (s.region (Fin.ofNat 16 i)).state = .blank)),
        (17, 5, s.mea.queue.length)]
    | 0x11 => match s.mea.refuse with
        | some (t, g, slot, full, code) =>
          pack [(0, 4, t.val), (4, 4, g.val), (8, 2, slot.toNat), (10, 1, b2n full), (11, 4, code), (15, 1, 1)]
        | none => 0
    | _ => 0

/-! ### Tributaries (Tables TR-5 and TR-8) -/

def State.routeReg (s : State) (n : NiId) (e : Nat) : Word :=
  let x := s.net.routes[n][(Fin.ofNat 32 e)]
  if e < 24 ∧ e ≠ n.val then
    pack [(0, 21, x.hops.toNat), (21, 5, e), (26, 1, b2n x.valid), (27, 3, x.tmo.toNat), (30, 1, b2n x.snoop)]
  else 0

def NiCount.reg (c : NiCount) : Word := pack [(0, 9, c.tmo.toNat), (9, 9, c.near.toNat), (18, 9, c.late.toNat), (27, 9, c.flush.toNat)]

def State.routerReg (s : State) (r : RouterId) (o : Nat) : Word :=
  let x := s.net.routers[r]
  let n0 := niAt r false
  let n1 := niAt r true
  let fl (n : Option NiId) : Nat := n.elim 0 (fun n => b2n (decide (s.net.flushing[n] ≠ 0)))
  let sp (n : Option NiId) : Nat := n.elim 0 (fun n => b2n niPlace[n].2.2)
  match o with
  | 0 => pack [(0, 1, 1), (1, 1, fl n0), (2, 1, fl n1), (3, 5, n0.elim 31 (·.val)), (8, 5, n1.elim 31 (·.val)), (13, 1, sp n0),
      (14, 1, sp n1)]
  | 1 => x.cor
  | 2 => x.unc
  | 3 => pack [(0, 18, x.hdrop.toNat), (18, 18, x.mdrop.toNat)]
  | 4 => x.units
  | 5 => x.blk
  | 6 => n0.elim 0 (fun n => s.net.counts[n].reg)
  | _ => n1.elim 0 (fun n => s.net.counts[n].reg)

/-! ### Weir (Tables WR-2 and WR-3) -/

def fourOf (w : Nat) (f : Group → Nat) : List (Nat × Nat × Nat) := allGroups.map (fun g => (w * g.val, w, f g))

def shifted (d : Nat) (fs : List (Nat × Nat × Nat)) : List (Nat × Nat × Nat) := fs.map (fun f => (f.1 + d, f.2.1, f.2.2))

def State.classReg (s : State) (q : Nat) (r : Nat) : Word :=
  let c := s.cls (BitVec.ofNat 4 q)
  let d := c.recd
  if q = 0 ∧ (r ≤ 5 ∨ r = 0x0c ∨ r = 0x0e) then 0
  else
    match r with
    | 0x00 => pack [(0, 1, b2n d.owner.isSome), (1, 4, d.owner.elim 0 (·.val)), (5, 4, d.b), (9, 7, d.cap)]
    | 0x01 => pack [(0, 16, d.target)]
    | 0x0a => pack [(0, 7, c.out.toNat), (7, 29, Nat.min (cyclesOf c.heldNs) 0x1fffffff)]
    | 0x0b =>
      let held (g : Group) := s.entries (BitVec.ofNat 4 q) g
      pack (fourOf 6 held ++ shifted 24 (fourOf 1 (fun g => b2n (decide (d.share[g] ≤ held g) && decide (0 < d.share[g])))))
    | 0x0c => pack (fourOf 6 (fun g => d.share[g]))
    | 0x0d => c.lf.zeroExtend 36
    | 0x0e => pack (fourOf 4 (fun g => c.effAt g) ++ [(16, 4, c.effElse)]
        ++ shifted 20 (fourOf 1 (fun g => b2n (d.owner.isSome && c.overBudget g)))
        ++ shifted 24 (fourOf 1 (fun g => b2n (s.weir.sf.getLsbD g.val))))
    | 0x0f => c.cmp
    | 0x10 => c.lmax.zeroExtend 36
    | 0x11 => c.sfb
    | 0x12 => c.zsh
    | _ =>
      if 2 ≤ r ∧ r ≤ 5 then pack [(0, 32, d.budget[(Fin.ofNat 4 (r - 2))])]
      else if 6 ≤ r ∧ r ≤ 9 then
        let g : Group := Fin.ofNat 4 (r - 6)
        pack [(0, 22, c.bytes[g].toNat), (22, 14, c.overs[g].toNat)]
      else 0

/-- Sum of a record field over the classes. -/
def State.classSum (s : State) (f : ClassRecord → Nat) : Nat := s.weir.classes.toList.foldl (fun n c => n + f c.recd) 0

def State.weirReg (s : State) (r : Nat) : Word :=
  if r < 16 then s.weir.labels[(Fin.ofNat 16 r)].zeroExtend 36
  else if 0x13 ≤ r ∧ r ≤ 0x16 then
    let g : Group := Fin.ofNat 4 (r - 0x13)
    pack [(0, 18, s.weir.grpSf[g].toNat), (18, 18, s.weir.grpLost[g].toNat)]
  else if 0x17 ≤ r ∧ r ≤ 0x1a then
    let g : Group := Fin.ofNat 4 (r - 0x17)
    pack [(0, 21, s.classSum (fun d => d.budget[g])), (21, 5, s.classSum (fun d => d.share[g]))]
  else
    match r with
    | 0x10 => s.weir.win
    | 0x11 => pack [(0, 16, Nat.min 65535 ((s.now - s.weir.winAt) * 2 / 5))]
    | 0x12 => pack [(0, 4, s.weir.sf.toNat), (4, 4, s.weir.sfPrev.toNat)]
    | _ => 0

/-! ### Memory banks and ports (Tables PL-2 and LN-7) -/

def bankStateCode : BankState → Nat
  | .active => 0 | .retention => 1 | .waking => 2 | .offline => 3

def State.bankReg (s : State) (i : BankId) (r : Nat) : Word :=
  let b := s.bank i
  match r with
  | 0 => pack [(0, 2, bankStateCode b.state), (2, 2, if i.val < 16 then i.val / 4 else 0), (4, 1, b2n (decide (16 ≤ i.val))),
      (5, 6, Nat.min 63 (s.net.waits.filter (fun p => decide (p.stage = .queued) && decide (p.req.phys.bank = i))).length)]
  | 1 => b.rdu
  | 2 => b.wru
  | 3 => b.rmw
  | 4 => b.busy
  | 5 => b.cor
  | 6 => b.unc
  | 7 => pack [(0, 16, b.uadr.toNat), (16, 1, b2n b.uvalid), (17, 1, b2n b.uscrub)]
  | 8 => pack [(0, 16, b.scrub.toNat), (16, 20, b.passes.toNat)]
  | 9 => b.frc
  | 10 => pack [(0, 18, b.wakes.toNat), (18, 18, b.waited.toNat)]
  | _ => b.col

def portStateCode : PortState → Nat
  | .off => 0 | .training => 1 | .up => 2 | .down => 3

def State.portReg (s : State) (p : Port) (r : Nat) : Word :=
  let x := s.port p
  match r with
  | 0x00 => pack [(0, 2, portStateCode x.state), (2, 1, b2n x.amp24), (3, 1, b2n x.master), (4, 1, b2n x.relaying),
      (5, 1, b2n (decide (s.ptp.timePort = some p)))]
  | 0x01 => x.upc
  | 0x02 => x.downc
  | 0x03 => x.rxf
  | 0x04 => x.rxe
  | 0x05 => x.txf
  | 0x06 => x.rly
  | 0x07 => x.dup
  | 0x08 => x.own
  | 0x09 => x.qdrop
  | 0x0a => x.untag
  | 0x0b => x.supv
  | 0x0c =>   -- LPMSE: log 153, DESIGN CHOICE
    if x.state = .up ∧ s.passed s.power.runAt ms = true then
      (Config.linkMse (s.now / ms) (match p with
        | .a => 0
        | .b => 1)).zeroExtend 36
    else 0
  | 0x0d => x.last.zeroExtend 36
  | 0x0e => pack [(0, 7, (s.ring.nodes.filter (fun n => decide (n.2.1 = p))).length)]
  | 0x0f => x.resmx.zeroExtend 36
  | 0x10 => (s.address.extractLsb' 24 24).zeroExtend 36
  | 0x11 => (s.address.extractLsb' 0 24).zeroExtend 36
  | 0x12 => x.early
  | _ => 0

/-! ### Ring map and ring time (Tables MR-10 and LN-8) -/

def State.mapReg (s : State) (k : Nat) (r : Nat) : Word :=
  let b : BitVec 6 := BitVec.ofNat 6 k
  let m := s.socket b
  let self := decide (s.code.latched.s = some b) && !s.bySerial
  match r with
  | 0 => pack [(0, 1, b2n m.heard), (1, 1, b2n (s.mill.buddies.contains b)), (2, 1, b2n m.lost), (3, 1, b2n m.nbrA),
      (4, 1, b2n m.nbrB), (5, 3, m.goCause.toNat), (8, 1, b2n m.twin), (9, 1, b2n self), (10, 2, m.verdict.toNat),
      (12, 1, b2n m.hale), (13, 1, b2n m.vigil), (14, 8, m.lostCnt.toNat)]
  | 1 => lowWord m.serial.toNat
  | 2 => highWord m.serial.toNat
  | _ =>
    if k = 63 then pack [(0, 20, m.lastMs.toNat), (20, 8, s.mill.bad.toNat), (28, 4, s.mill.bxf.toNat), (32, 4, s.mill.self_.toNat)]
    else pack [(0, 20, m.lastMs.toNat), (20, 16, m.losses.toNat)]

def lockStateCode : LockState → Nat
  | .unlocked => 0 | .acquiring => 1 | .locked => 2

def State.ptpReg (s : State) (t : Ctx) (r : Nat) : Word :=
  let p := s.ptp
  match r with
  | 0x00 => pack [(0, 2, lockStateCode p.state), (2, 1, b2n p.keeper.isSome), (3, 1, b2n (decide (p.timePort = some .b))),
      (4, 1, b2n p.delayOk)]
  | 0x01 => BitVec.ofNat 36 (satInt 36 p.ofs)
  | 0x02 => pack [(0, 24, p.mpd)]
  | 0x03 => p.keeper.elim 0 (fun k => lowWord k.identity.toNat)
  | 0x04 => p.keeper.elim 0 (fun k => highWord k.identity.toNat)
  | 0x05 => p.keeper.elim 0 (fun k => (k.src.extractLsb' 24 24).zeroExtend 36)
  | 0x06 => p.keeper.elim 0 (fun k => (k.src.extractLsb' 0 24).zeroExtend 36)
  | 0x07 => p.syncs
  | 0x08 => p.dreqs
  | 0x09 => pack [(0, 18, p.locks.toNat), (18, 18, p.losses.toNat)]
  | 0x0a => p.switches
  | 0x0b => pack [(0, 16, p.utc.toNat), (16, 1, b2n p.utcOk)]
  | 0x0c => pack [(0, 30, s.ringNs % sec)]
  | 0x0d => (s.ctx t).ptsecl
  | 0x0e => (s.ctx t).ptsech.zeroExtend 36
  | 0x0f => p.orph
  | _ => 0

/-! ### Gauge (Table GA-5) -/

/-- GALINK0 and GALINK1. -/
def State.galink (s : State) (p : Port) : Word :=
  let x := s.port p
  pack [(0, 2, if x.only24 then 2 else 3), (2, 1, b2n x.amp24),
    (3, 4, Nat.min 15 (x.losses.filter (fun i => decide (s.now < i + 600 * sec))).length)]

/-- The Gauge block (Table GA-5). VA stands at the retention voltage while the array is parked (R342; log 154, DESIGN CHOICE). -/
def State.gaugeReg (s : State) (r : Nat) : Word :=
  let g := s.gauge
  if 0x10 ≤ r ∧ r < 0x20 then g.floors[(Fin.ofNat 16 (r - 0x10))].zeroExtend 36
  else if 0x20 ≤ r ∧ r < 0x30 then
    let v := g.sfl[(Fin.ofNat 16 (r - 0x20))]
    pack [(0, 9, v[0].toNat), (9, 9, v[1].toNat), (18, 9, v[2].toNat), (27, 9, v[3].toNat)]
  else if 0x30 ≤ r ∧ r < 0x34 then
    let c : CellId := Fin.ofNat 4 (r - 0x30)
    pack [(0, 9, g.cells[c].est.toNat), (9, 9, s.threshold c), (18, 18, g.cells[c].cross.toNat)]
  else if 0x40 ≤ r ∧ r < 0x4c then
    let ch : Chan := Fin.ofNat 12 (r - 0x40)
    let l := g.loops[ch]
    pack [(0, 8, l.peak.toNat), (8, 8, Nat.min 255 (l.quiet / 100)), (16, 1, b2n (decide ((s.chan ch).row = 3))), (17, 19, l.sels.toNat)]
  else
    match r with
    | 0x00 => pack [(0, 4, g.step), (4, 10, if s.modes.parked then 600 else vaOf g.step), (14, 1, b2n s.changing.isSome), (15, 1, b2n (decide (g.ceiling < 14))),
        (16, 1, b2n s.modes.parked), (17, 1, b2n s.proofOpen), (18, 1, b2n s.bursting)]
    | 0x01 => pack [(0, 4, g.ceiling), (4, 4, s.floorNow), (8, 4, g.demand), (12, 4, s.target)]
    | 0x02 => g.die.zeroExtend 36
    | 0x03 => g.dieMax.zeroExtend 36
    | 0x04 => g.bwt.zeroExtend 36
    | 0x05 => pack [(0, 18, g.episodes.toNat), (18, 18, g.seconds.toNat)]
    | 0x06 => g.steps
    | 0x07 => g.busy.zeroExtend 36
    | 0x08 => pack [(0, 5, g.pll.toNat), (5, 5, g.rails.toNat)]
    | 0x34 => match g.last with
        | some (c, at_) => pack [(0, 2, c.val), (2, 1, 1), (3, 20, at_.toNat)]
        | none => 0
    | 0x50 => pack [(0, 9, g.confDvfs.toNat), (9, 9, g.confSent.toNat), (18, 9, g.confPin.toNat)]
    | 0x51 => s.galink .a
    | 0x52 => s.galink .b
    | _ => 0

/-! ### Lock views, faults and modes (Tables HR-4, FL-7, MD-5) -/

/-- The tenants in force. -/
def State.tenantMask (s : State) : Nat := maskOf 16 (fun t => s.tenantExists (Fin.ofNat 16 t))

/-- A valid closing page stands. -/
def Slot.closed (x : Slot) : Bool := x.closing.counted.isSome

def State.lockReg (s : State) (t : Ctx) (r : Nat) : Word :=
  let l := s.lock
  let bank := l.banks.getLast?
  if 0x08 ≤ r ∧ r < 0x10 then
    pack [(0, 16, l.versions[(Fin.ofNat 16 (2 * (r - 8)))].toNat), (16, 16, l.versions[(Fin.ofNat 16 (2 * (r - 8) + 1))].toNat)]
  else if 0x10 ≤ r ∧ r < 0x18 then digestWord Config.larkorRoot (r - 0x10)
  else if 0x18 ≤ r ∧ r < 0x20 then bank.elim 0 (fun e => digestWord e.warden (r - 0x18))
  else if 0x20 ≤ r ∧ r < 0x28 then bank.elim 0 (fun e => digestWord e.custodian (r - 0x20))
  else if 0x28 ≤ r ∧ r < 0x30 then (if l.charter.isSome then digestWord l.charterDig (r - 0x28) else 0)
  else if 0x30 ≤ r ∧ r < 0x38 then digestWord deviceKeyHash (r - 0x30)
  else
    match r with
    | 0x00 => lowWord Config.deviceSerial.toNat
    | 0x01 => highWord Config.deviceSerial.toNat
    | 0x02 => lowWord l.nonce.toNat
    | 0x03 => highWord l.nonce.toNat
    | 0x04 => pack [(0, 1, b2n (!l.banks.isEmpty)), (1, 3, l.banks.length), (4, 1, b2n l.house), (5, 1, b2n l.enrolFused),
        (6, 1, b2n l.restartLoop), (7, 7, if l.charter.isSome then l.charterEpoch.toNat else 0), (14, 7, l.charterCtr.toNat),
        (21, 7, l.patchCtr.toNat), (28, 1, b2n l.charterLost)]
    | 0x05 => pack [(0, 16, s.tenantMask), (16, 16, s.halMask.toNat)]
    | 0x06 => pack [(0, 16, l.charter.elim 0 (fun c => c.encMask.toNat)), (16, 16, l.idle.toNat)]
    | 0x07 => pack [(0, 16, l.recipeB.toNat), (16, 1, b2n l.charterB), (17, 1, b2n l.patchB), (18, 1, b2n s.ks.charter.a.closed),
        (19, 1, b2n s.ks.charter.b.closed), (20, 1, b2n s.ks.patch.a.closed), (21, 1, b2n s.ks.patch.b.closed)]
    | 0x38 => lowWord (s.tfind t).seq.toNat
    | 0x39 => highWord (s.tfind t).seq.toNat
    | 0x3a => pack [(0, 16, (s.tfind t).taken.toNat), (16, 16, (s.tfind t).refused.toNat)]
    | 0x3b => l.refused.elim 0 (fun x => pack [(0, 8, x.code.toNat), (8, 8, x.kind.toNat), (16, 8, x.tenant.toNat), (24, 1, 1)])
    | 0x3c => l.refused.elim 0 (fun x => BitVec.ofNat 36 (x.digest.toNat / 2 ^ 32))
    | 0x3d => pack [(0, 16, l.staged.toNat), (16, 1, b2n s.ks.transfer.isSome), (17, 1, b2n (!l.staging.isEmpty))]
    | _ => 0

def State.faultReg (s : State) (r : Nat) : Word :=
  let f := s.faults
  if 0x10 ≤ r ∧ r < 0x20 then
    let d := f.dropped[(Fin.ofNat 16 (r - 0x10))]
    pack ((List.range 7).map (fun i => (5 * i, 5, d[(Fin.ofNat 7 i)].toNat)))
  else if 0x20 ≤ r ∧ r < 0x30 then
    match f.last[(r - 0x20) / 4]? with
    | some e => BitVec.ofNat 36 (fieldBE e.bytes (4 * ((r - 0x20) % 4)) 4)
    | none => 0
  else if 1 ≤ r ∧ r < 5 then
    match f.stack[r - 1]? with
    | some x => pack [(0, 8, x.code.toNat), (8, 3, x.cls), (11, 4, x.ctx.val), (15, 1, b2n x.preempted)]
    | none => 0
  else
    match r with
    | 0 => pack [(0, 3, f.stack.length), (3, 3, (f.stack.head?).elim 0 (·.cls)), (6, 1, b2n (!f.stack.isEmpty))]
    | 5 => pack [(0, 9, f.counts[0].toNat), (9, 9, f.counts[1].toNat), (18, 9, f.counts[2].toNat), (27, 9, f.counts[3].toNat)]
    | 6 => s.ks.nextEntry.zeroExtend 36
    | 7 => s.ks.persisted.zeroExtend 36
    | 8 => pack [(0, 12, f.lostC1.toNat), (12, 12, f.lostHi.toNat), (24, 12, f.escal.toNat)]
    | _ => 0

/-- PARKED (Table MD-7): a Bell or read that runs after a wake sees it until the Pool groups that the wake woke serve again (R106,
R253). How long it lasts after the wake is the model's choice (log 138, DESIGN CHOICE). -/
def State.parkedBit (s : State) : Bool := s.modes.parked || s.banks.toList.any (fun b => decide (b.state = .waking))

/-- A capture that the threshold would begin is armed (CAPST [16]; R108, R115). Log 88, DEDUCED. -/
def State.sentinelArmed (s : State) : Bool :=
  allCtx.any (fun t => (s.ctx t).cap.arms && (s.ctx t).live && s.granted t mCapture)

/-- The mode block (Table MD-5). PRFNEXT counts a part of a second as a whole one, the model's choice (log 140, DESIGN CHOICE). -/
def State.modeReg (s : State) (r : Nat) : Word :=
  let m := s.modes
  if r < 16 then
    let t : Ctx := Fin.ofNat 16 r
    pack [(0, 8, m.req[t].toNat), (8, 8, (s.grant t).toNat), (16, 1, b2n (m.prfref.getLsbD r))]
  else if 0x1c ≤ r ∧ r < 0x20 then
    let e := m.log[(Fin.ofNat 4 (r - 0x1c))]
    pack [(0, 8, e.act.toNat), (8, 8, e.cause.toNat), (16, 20, e.ms.toNat)]
  else
    match r with
    | 0x10 => pack [(0, 8, m.act.toNat), (8, 1, b2n s.parkedBit), (9, 1, b2n s.proofOpen), (10, 1, b2n m.replay), (11, 1, b2n m.divert)]
    | 0x11 => pack [(0, 8, s.permit.toNat), (8, 6, s.code.latched.p.toNat), (14, 3, s.code.latched.z.toNat)]
    | 0x12 => pack [(0, 8, m.hw.toNat), (8, 1, b2n m.keeperLost), (9, 1, b2n (!s.lostBuddies.isEmpty))]
    | 0x13 => pack [(0, 3, if s.divided then 4 else 1)]
    | 0x14 => BitVec.ofNat 36 ((s.secondFrom m.dueAt - s.now + sec - 1) / sec)
    | 0x15 => BitVec.ofNat 36 s.proofUsed
    | 0x16 => pack [(0, 18, s.ks.reserve[ksIndex .findingLedger]), (18, 18, s.ks.livePairs)]
    | 0x17 => BitVec.ofNat 36 s.ks.skipped
    | 0x18 => pack [(0, 6, (s.lostBuddies.getD 0 0).toNat), (6, 6, (s.lostBuddies.getD 1 0).toNat), (12, 2, s.lostBuddies.length)]
    | 0x19 => pack [(0, 32, s.mill.speed.toNat), (32, 1, b2n s.mill.tachless)]
    | 0x1a => pack [(0, 16, maskOf 16 (fun t => (s.ctx (Fin.ofNat 16 t)).cap.burst)), (16, 1, b2n s.sentinelArmed)]
    | 0x1b => m.conf
    | _ => 0

/-! ### Any register -/

/-- What tenant `t` reads at a decoded index; a reserved register reads zero (R368). -/
def State.regRead (s : State) (t : Ctx) (a : RegAddr) : Word :=
  match a.block with
  | .context => s.ctxReg t a.off
  | .unit => s.unitReg (Fin.ofNat 4 a.inst) a.off
  | .sluice => s.sluiceReg a.off
  | .strip => s.stripReg (stripOf a.inst) a.off
  | .inOut => s.inOutReg (stripOf a.inst) a.off
  | .channel => s.chanReg (Fin.ofNat 12 a.inst) a.off
  | .ctCommon => s.ctReg t a.off
  | .coeff => s.ct.coeffs[(Fin.ofNat 12 a.inst)].reg a.off
  | .region => s.regionReg (Fin.ofNat 16 a.inst) a.off
  | .mnCommon => s.mnReg a.off
  | .route => s.routeReg (Fin.ofNat 24 a.inst) a.off
  | .router => s.routerReg (Fin.ofNat 16 a.inst) a.off
  | .weirClass => s.classReg a.inst a.off
  | .weirCommon => s.weirReg a.off
  | .bank => s.bankReg (Fin.ofNat 20 a.inst) a.off
  | .port => s.portReg (if a.inst = 0 then .a else .b) a.off
  | .ringMap => s.mapReg a.inst a.off
  | .ptp => s.ptpReg t a.off
  | .gauge => s.gaugeReg a.off
  | .lock => s.lockReg t a.off
  | .faults => s.faultReg a.off
  | .modes => s.modeReg a.off

end Sys2Proof.Machine
end

