-- ==== Sys2Proof/Machine/Braid.lean ====
section
/-! DEFINITION. Inlets and outlets (R144 to R153, R156): bits into an inlet's buffer, the completed buffer into the ring,
INLOAD, and the send of a released outlet buffer. -/

namespace Sys2Proof.Machine

/-! ### Inlets -/

/-- The ring's length in planes. -/
def Inlet.len (i : Inlet) : Nat := i.lenM1.toNat + 1

/-- Flags that come with a bit (R147). -/
structure BitFlags where
  sijump : Bool := false
  clip   : Bool := false
  settle : Bool := false
  lane   : Bool := false

/-- One bit into the buffer under fill; its first bit's SI is recorded. Log 47, DEDUCED. -/
def Inlet.feed (i : Inlet) (si : BitVec 64) (b : Bool) (f : BitFlags) : Inlet :=
  let first := decide (i.filled = 0)
  { i with
    fill := if b then i.fill ||| (1#1024 <<< i.filled) else i.fill, filled := i.filled + 1,
    cur := { si := if first then si else i.cur.si, sijump := (!first && i.cur.sijump) || f.sijump,
             clip := (!first && i.cur.clip) || f.clip, settle := (!first && i.cur.settle) || f.settle,
             lane := (!first && i.cur.lane) || f.lane } }

/-- INLETU in the owner of strip `k` (R146), and its finding flag (Table MR-7). -/
def State.inletU (s : State) (k : Strip) : State :=
  match (s.strip k).owner with
  | some t => (s.flag t 7).signal t 0 [plainCause causeInletU (BitVec.ofNat 4 k.val)]
  | none => s

/-- A completed buffer of strip `k` (R145 to R147): into the hold buffer and the ring, in a stolen cycle; or lost with
INLETU when every ring plane is unreleased. WAIT event 0 rises for the owner (log 37, DEDUCED). -/
def State.completeInlet (s : State) (k : Strip) : State :=
  let i := (s.strip k).inlet
  let owner := (s.strip k).owner
  let full := decide (i.len ≤ i.count)
  let empty (i : Inlet) : Inlet := { i with fill := 0, filled := 0, done := i.done + 1 }
  let s :=
    if full then
      (s.modInlet k (fun i => empty { i with lost := satInc i.lost, resumed := if i.resumed = 2 then 1 else i.resumed })).inletU k
    else
      let p : RingPlane := { i.cur with sijump := i.cur.sijump || decide (i.resumed = 1) }
      let s := { s with braid := s.braid.poke k ((i.base.toNat + i.wr.toNat) % 2040) i.fill }
      let s := s.modStrip k (fun x => { x with steal := x.steal + 1 })
      let s := s.modInlet k (fun i =>
        empty { i with
          hold := i.fill, holdSome := true, unread := true, newer := true, planes := i.planes.set i.wr.toNat p i.wr.isLt,
          wr := BitVec.ofNat 8 ((i.wr.toNat + 1) % i.len), count := i.count + 1, resumed := i.resumed - 1 })
      match owner with
      | some t =>
        let s := if p.settle then s.flag t 5 else s
        if p.sijump then s.flag t 6 else s
      | none => s
  match owner with
  | some t => (s.event t evInlet).resumeOp t .inlet
  | none => s

/-- Bits of a source reach strip `k`'s inlet (R144): a full buffer completes first; a parked array starts no buffer
(R149). -/
def State.pushBit (s : State) (k : Strip) (si : BitVec 64) (b : Bool) (f : BitFlags) : State :=
  let s := if 1024 ≤ (s.strip k).inlet.filled then s.completeInlet k else s
  let i := (s.strip k).inlet
  if !i.en || (s.modes.parked && decide (i.filled = 0)) then s
  else s.modInlet k (fun i => i.feed si b f)

/-- One sample of a channel (R144): filling starts at the first sample whose SI has bits [9:0] zero. -/
def State.pushSample (s : State) (k : Strip) (si : BitVec 64) (b : Bool) (f : BitFlags) : State :=
  let s := if 1024 ≤ (s.strip k).inlet.filled then s.completeInlet k else s
  let i := (s.strip k).inlet
  if i.aligned then s.pushBit k si b f
  else if si.toNat % 1024 = 0 ∧ s.modes.parked = false then
    (s.modInlet k (fun i => { i with aligned := true })).pushBit k si b f
  else s

def execInletBufferComplete (k : Strip) (s : State) : Out :=
  .next (if 1024 ≤ (s.strip k).inlet.filled then s.completeInlet k else s)

/-! ### Register writes of the strip and inlet/outlet blocks (R156) -/

/-- The outcome of a register write. -/
inductive WriteOut where
  | done (s : State)
  | refused              -- HRSP, nothing changed
  | cause (r : Raise)    -- another synchronous cause

/-- INCTL: a ring past plane 7F7h, or a change of anything but EN while EN = 1, is ignored and sets CFGERR. A new ring
starts at index 0 (log 38, DEDUCED). -/
def Inlet.writeCtl (i : Inlet) (v : Word) : Inlet :=
  let src : BitVec 5 := v.extractLsb' 0 5
  let en := v.getLsbD 5
  let lenM1 : Byte := v.extractLsb' 6 8
  let base : BitVec 11 := v.extractLsb' 14 11
  let same := decide (src = i.src) && decide (lenM1 = i.lenM1) && decide (base = i.base)
  if 0x7f7 < base.toNat + lenM1.toNat ∨ (i.en = true ∧ same = false) then { i with cfgerr := true }
  else
    let i := if lenM1 = i.lenM1 ∧ base = i.base then i else { i with wr := 0, rel := 0, count := 0 }
    let i := { i with src := src, lenM1 := lenM1, base := base }
    if en then (if i.en then i else { i with en := true, fill := 0, filled := 0, aligned := false })
    else i.disable

/-- INREL: planes older than the index are free; an index past INWR is ignored and sets CFGERR (R146, R156). -/
def Inlet.writeRel (i : Inlet) (v : Word) : Inlet :=
  let r := v.toNat % 256
  let d := (r + i.len - i.rel.toNat) % i.len
  if i.len ≤ r ∨ i.count < d then { i with cfgerr := true }
  else { i with rel := BitVec.ofNat 8 r, count := i.count - d }

/-- INLOAD (R144, R146): 32 bits, bit 0 first; with no buffer free it is discarded and raises INLETU. The model's choices, which the spec
leaves open (log 144, DESIGN CHOICE): no buffer is free when every ring plane is unreleased, and a write to an inlet that is disabled or
whose source is not INLOAD changes nothing. -/
def State.writeLoad (s : State) (k : Strip) (v : Word) : WriteOut :=
  let i := (s.strip k).inlet
  if !i.en || decide (i.src ≠ 0x11) then .done s
  else
    let s := if 1024 ≤ i.filled then s.completeInlet k else s
    let i := (s.strip k).inlet
    if i.len ≤ i.count then
      .cause { code := causeInletU, qual := BitVec.ofNat 4 k.val, slot := 0, data := none, ms := false }
    else .done ((List.range 32).foldl (fun s b => s.pushBit k s.time.si (v.getLsbD b) {}) s)

/-- OUTCTL by tenant `t`: a class that `t` does not own is refused. -/
def State.writeOutctl (s : State) (t : Ctx) (k : Strip) (v : Word) : WriteOut :=
  let q : BitVec 4 := v.extractLsb' 1 4
  if s.ownsClass t q.toNat then .done (s.modOutlet k (fun o => { o with en := v.getLsbD 0, qc := q })) else .refused

/-- Writes of the inlet/outlet block. -/
def State.writeInOut (s : State) (t : Ctx) (k : Strip) (r : Nat) (v : Word) : WriteOut :=
  match r with
  | 0 => .done (s.modInlet k (fun i => i.writeCtl v))
  | 2 => .done (s.modInlet k (fun i => i.writeRel v))
  | 6 => s.writeLoad k v
  | 7 => s.writeOutctl t k v
  | 8 => .done (s.modOutlet k (fun o => { o with addr := v.extractLsb' 0 18 }))
  | 9 => .done (s.modOutlet k (fun o => { o with end_ := v.extractLsb' 0 18 }))
  | _ => .done s

/-- Writes of the strip block: BRCTL alone. It applies from the next strand-op boundary (R142). -/
def State.writeStrip (s : State) (k : Strip) (r : Nat) (v : Word) : WriteOut :=
  if r = 0 then .done (s.modStrip k (fun x => { x with nsmode := v.extractLsb' 0 2, ewwrap := v.getLsbD 2 })) else .done s

/-! ### Outlets (R151, R152) -/

/-- Word `j` of a buffer: rows 32 w to 32 w + 31 of local column m, j = 4 m + w. -/
def outletWord (p : Plane) (j : Nat) : Word := (p.extractLsb' (32 * j) 32).zeroExtend 36

/-- The 16 data units of a send. -/
def outletUnits (b : Plane) : List (BitVec 72) :=
  (List.range 16).map (fun i => outletWord b (2 * i + 1) ++ outletWord b (2 * i))

/-- Where a send goes: the 32 words lie in the window of the first word and in one bank (R235, R232). -/
def State.outletTarget (s : State) (t : Ctx) (addr : BitVec 18) : Option Phys :=
  match s.translate t addr true, s.translate t (addr + 31) true with
  | some p, some q => if q.eddy = p.eddy ∧ q.word = p.word + 31 ∧ p.bank = q.bank then some p else none
  | _, _ => none

/-- The packet of a send: WRP with 16 data units under OUTCTL.QC. -/
def State.sendPacket (s : State) (k : Strip) (t : Ctx) (q : BitVec 4) (p : Phys) (b : Plane) : State :=
  s.sendRequest (quadNi k) cmdWrp t q 0 p 15 (.outlet k) (outletUnits b)

/-- A packet of the quad still stands at its NI: the next send waits for it. -/
def State.quadBusy (s : State) (k : Strip) : Bool :=
  s.net.waits.any (fun p => decide (p.stage = .atNi) && decide (p.req.src = quadNi k))

/-- OUTLET_SEND: the oldest released buffer of strip `k` goes out under OUTCTL.QC, and OUTADDR advances by 32 (log 39, DEDUCED). -/
def execOutletSend (k : Strip) (s : State) : Out :=
  let o := (s.strip k).outlet
  match o.ready, (s.strip k).owner with
  | b :: rest, some t =>
    if s.power.phase ≠ .run ∨ s.quadBusy k = true then .next s
    else
      let s1 := s.modOutlet k (fun o => { o with ready := rest, addr := o.addr + 32 })
      let s2 := match s1.outletTarget t o.addr with
        | some p => s1.sendPacket k t o.qc p b
        | none =>
          (s1.modOutlet k (fun o => { o with dropped := satInc o.dropped, err := true })).raiseAsync t causeNiwin 2
            (o.addr.zeroExtend 36)
      .next (s2.resumeOp t .outlet)
  | _, _ => .next s

end Sys2Proof.Machine
end

