-- ==== Sys2Proof/Machine/Headwater.lean ====
section
/-! DEFINITION. The long ops of Table HW-3, but for STRAND (Strands.lean) and register access (Access.lean): each
command issues its instruction in context t. -/

namespace Sys2Proof.Machine

/-! ### Slices -/

/-- The end of a context's slice (R214): its time is deducted from the credit and its unit is free. -/
def State.endSlice (s : State) (t : Ctx) (expired : Bool) : State :=
  let c := s.ctx t
  let s := s.modUnit c.unit (fun u => { u with ctx := none, swapPend := false })
  s.modCtx t (fun c => { c with credit := c.credit - ((s.now : Int) - (c.sliceAt : Int)), expired := expired })

/-! ### Issue forms -/

/-- A plain long op (group D). -/
def State.plainOp (s : State) (t : Ctx) (op : Nat) (field : BitVec 11) (body : State → Res Flow) : State :=
  s.issue t { word := longWord op field, plain := true, barrier := false } body

/-- A transfer (group C). -/
def State.transferOp (s : State) (t : Ctx) (op : Nat) (field : BitVec 11) (body : State → Res Flow) : State :=
  s.issue t { word := longWord op field, plain := false, barrier := false } body

/-- A system op (group S), at which run-ahead stops (Table PB-3). -/
def State.systemOp (s : State) (t : Ctx) (op : Nat) (field : BitVec 11) (body : State → Res Flow) : State :=
  s.issue t { word := longWord op field, plain := false, barrier := true } body

/-- UND unless the field bits in `zero` are all 0 (R181, R194). -/
def State.zeroField (s : State) (word : Word) (field zero : BitVec 11) (f : State → Res Flow) : Res Flow :=
  if field &&& zero = 0 then f s else .raise s (syncCause causeUnd word)

/-- Every field bit must be 0. -/
def allZero : BitVec 11 := 0x7ff

/-! ### Literals -/

/-- Push a value. -/
def State.pushOp (s : State) (t : Ctx) (op : Nat) (k : BitVec 11) (v : Word) : State :=
  s.plainOp t op k (fun s => (s.pushes t [v] (longWord op k)).seq)

def execLit (t : Ctx) (k : BitVec 11) (s : State) : Out := .next (s.pushOp t 0x01 k (k.signExtend 36))
def execLitu (t : Ctx) (k : BitVec 11) (s : State) : Out := .next (s.pushOp t 0x02 k (k.zeroExtend 36))
def execLits (t : Ctx) (k : BitVec 11) (s : State) : Out :=
  .next (s.plainOp t 0x03 k (fun s => s.pops t 1 (longWord 0x03 k) (fun s xs =>
    (s.pushes t [xs.getD 0 0 * 2048 + k.zeroExtend 36] (longWord 0x03 k)).seq)))
def execAddi (t : Ctx) (k : BitVec 11) (s : State) : Out :=
  .next (s.plainOp t 0x0b k (fun s => s.pops t 1 (longWord 0x0b k) (fun s xs =>
    (s.pushes t [xs.getD 0 0 + k.signExtend 36] (longWord 0x0b k)).seq)))
def execBank (t : Ctx) (k : BitVec 11) (s : State) : Out :=
  .next (s.plainOp t 0x0a k (fun s => s.zeroField (longWord 0x0a k) k 0x780 (fun s =>
    .ok (s.modArch t (fun a => { a with bk := k.extractLsb' 0 7 })) .seq)))

/-! ### Loads and stores (R179, R180) -/

/-- A load onto the stack; the room on the stack is checked before the access (Table PB-1). -/
def State.loadOp (s : State) (t : Ctx) (addr : BitVec 18) (word : Word) : Res Flow :=
  if 16 ≤ (s.ctx t).arch.ds.length then .raise s (syncCause causeDsovf word)
  else (s.load t addr).bind (fun s v => (s.pushes t [v] word).seq)

/-- A store from the stack. -/
def State.storeOp (s : State) (t : Ctx) (addr : BitVec 18) (word : Word) : Res Flow :=
  s.pops t 1 word (fun s xs => (s.store t addr (xs.getD 0 0)).seq)

/-- A parity error in the running unit's state in place of an instruction (R356). -/
def State.unitParity (s : State) (t : Ctx) (p : UnitPart) : State :=
  if s.running t then s.unitOffline (s.ctx t).unit t p else s

def execLd (t : Ctx) (a : BitVec 11) (par : Option UnitPart) (s : State) : Out :=
  match par with
  | some p => .next (s.unitParity t p)
  | none => .next (s.plainOp t 0x04 a (fun s => s.loadOp t (bankAddr (s.ctx t).arch.bk a) (longWord 0x04 a)))
def execSt (t : Ctx) (a : BitVec 11) (s : State) : Out :=
  .next (s.plainOp t 0x05 a (fun s => s.storeOp t (bankAddr (s.ctx t).arch.bk a) (longWord 0x05 a)))
def execLdx (t : Ctx) (a : BitVec 11) (s : State) : Out :=
  .next (s.plainOp t 0x06 a (fun s => s.loadOp t (bankAddr 0 a) (longWord 0x06 a)))
def execStx (t : Ctx) (a : BitVec 11) (s : State) : Out :=
  .next (s.plainOp t 0x07 a (fun s => s.storeOp t (bankAddr 0 a) (longWord 0x07 a)))
def execLdy (t : Ctx) (a : BitVec 11) (s : State) : Out :=
  .next (s.plainOp t 0x08 a (fun s => s.loadOp t (bankAddr 1 a) (longWord 0x08 a)))
def execSty (t : Ctx) (a : BitVec 11) (s : State) : Out :=
  .next (s.plainOp t 0x09 a (fun s => s.storeOp t (bankAddr 1 a) (longWord 0x09 a)))

/-! ### Transfers (R182, R191, R198) -/

/-- A branch to an offset, taken when the popped word satisfies `test`; the transfer follows the delay slot. -/
def State.condBranch (s : State) (t : Ctx) (op : Nat) (o : BitVec 11) (test : Word → Bool) : State :=
  s.transferOp t op o (fun s => s.pops t 1 (longWord op o) (fun s xs =>
    .ok s (.branch (branchTarget (s.ctx t).pc o) (test (xs.getD 0 0)))))

def execBr (t : Ctx) (o : BitVec 11) (s : State) : Out :=
  .next (s.transferOp t 0x10 o (fun s => .ok s (.branch (branchTarget (s.ctx t).pc o) true)))
def execBz (t : Ctx) (o : BitVec 11) (s : State) : Out := .next (s.condBranch t 0x11 o (fun x => decide (x = 0)))
def execBnz (t : Ctx) (o : BitVec 11) (s : State) : Out := .next (s.condBranch t 0x12 o (fun x => decide (x ≠ 0)))

/-- Push the return address P + 2 and branch. -/
def State.callTo (s : State) (t : Ctx) (target : BitVec 19) (word : Word) : Res Flow :=
  (s.rpush t (((s.ctx t).pc + 2).zeroExtend 36) word).bind (fun s _ => .ok s (.branch target true))

def execCall (t : Ctx) (o : BitVec 11) (s : State) : Out :=
  .next (s.transferOp t 0x13 o (fun s => s.callTo t (branchTarget (s.ctx t).pc o) (longWord 0x13 o)))
def execRet (t : Ctx) (field : BitVec 11) (s : State) : Out :=
  .next (s.transferOp t 0x14 field (fun s => s.zeroField (longWord 0x14 field) field allZero (fun s =>
    (s.rpop t (longWord 0x14 field)).bind (fun s r => .ok s (.branch (r.extractLsb' 0 19) true)))))
def execJmpi (t : Ctx) (field : BitVec 11) (s : State) : Out :=
  .next (s.transferOp t 0x15 field (fun s => s.zeroField (longWord 0x15 field) field allZero (fun s =>
    s.pops t 1 (longWord 0x15 field) (fun s xs => .ok s (.branch ((xs.getD 0 0).extractLsb' 0 19) true)))))
def execCalli (t : Ctx) (field : BitVec 11) (s : State) : Out :=
  .next (s.transferOp t 0x16 field (fun s => s.zeroField (longWord 0x16 field) field allZero (fun s =>
    s.pops t 1 (longWord 0x16 field) (fun s xs =>
      s.callTo t ((xs.getD 0 0).extractLsb' 0 19) (longWord 0x16 field)))))

/-- BRC (R184, R200): it follows the result when every strand op has ended and its result has arrived; otherwise the
context speculates on the hint. -/
def State.brcBody (s : State) (t : Ctx) (field : BitVec 11) : Res Flow :=
  let c := s.ctx t
  let target := brcTarget c.pc field
  if c.strandsDone then .ok s (if c.result then .jump target else .jump (c.pc + 1))
  else
    let hint := field.getLsbD 10
    let sp : Spec :=
      { check := c.arch, brc := c.pc, other := if hint then c.pc + 1 else target, taken := hint, strands := 0,
        held := none, limited := false, arrived := false }
    let s := s.modCtx t (fun c => { c with spec := some sp })
    .ok (s.modUnit c.unit (fun u => { u with spec := u.spec + 1 })) (.jump (if hint then target else c.pc + 1))

def execBrc (t : Ctx) (field : BitVec 11) (s : State) : Out :=
  .next (s.issue t { word := longWord 0x17 field, plain := false, barrier := true } (fun s => s.brcBody t field))

/-- LOOP n (R191). -/
def State.loopBody (s : State) (t : Ctx) (n : BitVec 11) : Res Flow :=
  let word := longWord 0x18 n
  if n = 0 then .raise s (syncCause causeUnd word)
  else
    s.pops t 1 word (fun s xs =>
      let c := s.ctx t
      let count := xs.getD 0 0
      if 3 ≤ c.arch.levels then .raise s (syncCause causeLoopx word)
      else if count = 0 then .ok s (.jump (c.pc + 1 + n.zeroExtend 19))
      else
        let d : Fin 3 := Fin.ofNat 3 c.arch.levels
        .ok (s.modArch t (fun a =>
          { a with levels := a.levels + 1, lc := a.lc.set d count, ls := a.ls.set d (c.pc + 1),
                   le := a.le.set d (c.pc + n.zeroExtend 19) })) (.jump (c.pc + 1)))

def execLoop (t : Ctx) (n : BitVec 11) (s : State) : Out := .next (s.transferOp t 0x18 n (fun s => s.loopBody t n))
def execLeave (t : Ctx) (field : BitVec 11) (s : State) : Out :=
  .next (s.transferOp t 0x19 field (fun s => s.zeroField (longWord 0x19 field) field allZero (fun s =>
    if (s.ctx t).arch.levels = 0 then .raise s (syncCause causeLoopx (longWord 0x19 field))
    else .ok (s.modArch t (fun a => { a with levels := a.levels - 1 })) (.jump ((s.ctx t).pc + 1)))))

/-! ### String elements and REPS (R189, R190) -/

/-- One MOVS element. -/
def State.movsElem (s : State) (t : Ctx) : Res Unit :=
  let a := (s.ctx t).arch
  (s.load t a.src).bind (fun s v => (s.store t a.dst v).bind (fun s _ =>
    .ok (s.modArch t (fun a => { a with src := a.src + 1, dst := a.dst + 1, cnt := a.cnt - 1 })) ()))

/-- One FILLS element of value `v`. -/
def State.fillsElem (s : State) (t : Ctx) (v : Word) : Res Unit :=
  (s.store t (s.ctx t).arch.dst v).bind (fun s _ =>
    .ok (s.modArch t (fun a => { a with dst := a.dst + 1, cnt := a.cnt - 1 })) ())

/-- One CRCS element. -/
def State.crcsElem (s : State) (t : Ctx) : Res Unit :=
  (s.load t (s.ctx t).arch.src).bind (fun s m =>
    .ok (s.modArch t (fun a => { a with crca := crcsWord a m, src := a.src + 1, cnt := a.cnt - 1 })) ())

/-- One SCANS element: whether it matches `v`; it advances unless `stop` of the match. -/
def State.scansElem (s : State) (t : Ctx) (v : Word) (stop : Bool → Bool) : Res Bool :=
  (s.load t (s.ctx t).arch.src).bind (fun s m =>
    let hit := decide ((m ^^^ v) &&& (s.ctx t).arch.scmask = 0)
    if stop hit then .ok s true
    else .ok (s.modArch t (fun a => { a with src := a.src + 1, cnt := a.cnt - 1 })) false)

/-- Repeat elements until CNT = 0 or one asks to stop (R189). At most `budget` are performed in one command, and a store
that finds the buffer full waits: the repeat then goes on at the same instruction (R190). `done` is the final step.
Log 18, DESIGN CHOICE. -/
def repeatElems (t : Ctx) (elem : State → Res Bool) (done : State → Bool → Res Flow) : Nat → State → Res Flow
  | budget, s =>
    if (s.ctx t).arch.cnt = 0 then done s false
    else
      match budget with
      | 0 => .ok s .hold
      | b + 1 =>
        match elem s with
        | .ok s' true => done s' true
        | .ok s' false => repeatElems t elem done b s'
        | .raise s' r => if r.counted then .raise (s'.modArch t (fun _ => (s.ctx t).arch)) r else .raise s r
        | .stall s' => .ok (s'.undo s t) .hold

/-- The word of a REPS (R181): field [1:0] the op, [2] NE, [10:3] zero. -/
def repsWord (hi : BitVec 9) (op : BitVec 2) : Word := longWord 0x1a (hi ++ op)

/-- Issue a REPS: its field bits [10:3] must be 0. -/
def State.repsOp (s : State) (t : Ctx) (hi : BitVec 9) (op : BitVec 2) (body : State → Res Flow) : State :=
  s.issue t { word := repsWord hi op, plain := false, barrier := true, resumes := true }
    (fun s => s.zeroField (repsWord hi op) (hi ++ op) 0x7f8 body)

/-- The element never asks the repeat to stop. -/
def Res.go (r : Res Unit) : Res Bool := r.bind (fun s _ => .ok s false)

def execRepsMovs (t : Ctx) (hi : BitVec 9) (budget : Nat) (s : State) : Out :=
  .next (s.repsOp t hi 0 (fun s => repeatElems t (fun s => (s.movsElem t).go) (fun s _ => .ok s (.jump ((s.ctx t).pc + 1))) budget s))

def execRepsFills (t : Ctx) (hi : BitVec 9) (budget : Nat) (s : State) : Out :=
  .next (s.repsOp t hi 1 (fun s =>
    match (s.ctx t).arch.ds with
    | [] => .raise s (syncCause causeDsunf (repsWord hi 1))
    | v :: _ => repeatElems t (fun s => (s.fillsElem t v).go)
        (fun s _ => .ok (s.modArch t (fun a => { a with ds := a.ds.drop 1 })) (.jump ((s.ctx t).pc + 1))) budget s))

def execRepsCrcs (t : Ctx) (hi : BitVec 9) (budget : Nat) (s : State) : Out :=
  .next (s.repsOp t hi 2 (fun s =>
    if (s.ctx t).arch.crcOk then
      repeatElems t (fun s => (s.crcsElem t).go) (fun s _ => .ok s (.jump ((s.ctx t).pc + 1))) budget s
    else .raise s (syncCause causeUnd (repsWord hi 2))))

def execRepsScans (t : Ctx) (hi : BitVec 9) (budget : Nat) (s : State) : Out :=
  .next (s.repsOp t hi 3 (fun s =>
    match (s.ctx t).arch.ds with
    | [] => .raise s (syncCause causeDsunf (repsWord hi 3))
    | v :: _ => repeatElems t (fun s => s.scansElem t v (fun hit => hit != hi.getLsbD 0))
        (fun s f => .ok (s.modArch t (fun a => { a with ds := replaceTop (Word.ofBool f) a.ds }))
          (.jump ((s.ctx t).pc + 1))) budget s))

/-! ### CONF, MODE, WAIT, YIELD, FENCE, RETB -/

/-- CONF (R184): it stalls until every strand op has ended and its result has arrived. -/
def execConf (t : Ctx) (field : BitVec 11) (s : State) : Out :=
  .next (s.issue t { word := longWord 0x1c field, plain := true, barrier := true } (fun s =>
    s.zeroField (longWord 0x1c field) field allZero (fun s =>
      if 16 ≤ (s.ctx t).arch.ds.length then .raise s (syncCause causeDsovf (longWord 0x1c field))
      else if (s.ctx t).strandsDone then
        (s.pushes t [Word.ofBool (s.ctx t).result] (longWord 0x1c field)).seq
      else .stall s)))

/-- MODE (R98, R105): the popped mask waits for the commit at the end of the fourth following slot. A MODE in the shadow
of another holds until that one has committed, the remaining slots passing empty (R211). Log 126, DEDUCED. -/
def execMode (t : Ctx) (field : BitVec 11) (s : State) : Out :=
  .next (s.systemOp t 0x1d field (fun s => s.zeroField (longWord 0x1d field) field allZero (fun s =>
    s.pops t 1 (longWord 0x1d field) (fun s' xs =>
      match (s.ctx t).shadow with
      | some _ => .ok (s.emptyShadow t) .hold
      | none =>
        let sh : Shadow := { left := 4, mask := (xs.getD 0 0).extractLsb' 0 8 &&& 0x9f, pending := none }
        .ok (s'.modCtx t (fun c => { c with shadow := some sh })) (.jump ((s.ctx t).pc + 1))))))

/-- The deadline that a WAIT reads (R185). -/
def State.deadlineOf (s : State) (abs : Bool) (v : Word) : Option (Sum Nat Nat) :=
  if abs then some (.inr v.toNat) else if v = 0 then none else some (.inl (s.now + v.toNat * 1000))

/-- WAIT (R185): it ends at once on a level event of its mask or an instant already past; otherwise the unit is
released. -/
def State.waitBody (s : State) (t : Ctx) (field : BitVec 11) (v : Word) : Res Flow :=
  let c := s.ctx t
  let w : Waiting :=
    { mask := field.extractLsb' 0 7, tt := field.getLsbD 9, deadline := s.deadlineOf (field.getLsbD 8) v }
  let hit := c.levels &&& w.mask != 0
  let next := c.pc + 1
  if hit then .ok (s.setCtx t { c.endWait w 0 false false (s.waitExact w) with state := .running }) (.jump next)
  else if s.waitDue w then .ok (s.setCtx t { c.endWait w 0 true false false with state := .running }) (.jump next)
  else .ok ((s.endSlice t false).modCtx t (fun c => { c with state := .waiting, waiting := some w })) (.jump next)

def execWait (t : Ctx) (field : BitVec 11) (s : State) : Out :=
  .next (s.systemOp t 0x1e field (fun s => s.zeroField (longWord 0x1e field) field 0x480 (fun s =>
    match (s.ctx t).arch.ds with
    | [] => .raise s (syncCause causeDsunf (longWord 0x1e field))
    | v :: _ => if (s.ctx t).shadow.isSome then .ok (s.emptyShadow t) .hold else s.waitBody t field v)))

/-- YIELD (R214): the slice ends at once. -/
def execYield (t : Ctx) (field : BitVec 11) (s : State) : Out :=
  .next (s.systemOp t 0x1f field (fun s => s.zeroField (longWord 0x1f field) field allZero (fun s =>
    if (s.ctx t).shadow.isSome then .ok (s.emptyShadow t) .hold
    else .ok ((s.endSlice t false).modCtx t (fun c => { c with state := .ready })) (.jump ((s.ctx t).pc + 1)))))

/-- FENCE (R180): the buffer drains; it completes when the buffer is empty and every drained store is acknowledged. -/
def execFence (t : Ctx) (field : BitVec 11) (s : State) : Out :=
  .next (s.systemOp t 0x20 field (fun s => s.zeroField (longWord 0x20 field) field allZero (fun s =>
    let n := (s.ctx t).unit
    let s := s.drainUnit n
    if (s.hunit n).buffer.isEmpty && !s.unacked t then .ok s (.jump ((s.ctx t).pc + 1)) else .ok s .hold)))

/-- RETB (R208): back to BEPC, out of the handler, with any LCTL written since the Bell. Log 86, DEDUCED. -/
def execRetb (t : Ctx) (field : BitVec 11) (s : State) : Out :=
  .next (s.systemOp t 0x21 field (fun s => s.zeroField (longWord 0x21 field) field allZero (fun s =>
    let c := s.ctx t
    if c.inBell then
      .ok (s.modCtx t (fun c =>
        { c with
          inBell := false, loopfz := false, lctl := none,
          arch := match c.lctl with
            | some l => { c.arch with levels := l.toNat }
            | none => c.arch })) (.jump c.bepc)
    else .raise s (syncCause causeUnd (longWord 0x21 field)))))

end Sys2Proof.Machine
end

