-- ==== Sys2Proof/Machine/Access.lean ====
section
/-! DEFINITION. HRD, HWR, HRDC and HWRC (R193, R366 to R370) and the writes of every register that a recipe may write:
the own context block (Table HW-6), CAPTURE control (R115), range claims (R128), Meander registers (R284, R286, R289),
labels (R259) and Gauge floors (R351). -/

namespace Sys2Proof.Machine

/-! ### Ranges and bursts -/

/-- The settled state of a channel's claims: source, conflict, and a change that a burst defers (Table CT-5). -/
def State.settleChannel (s : State) (ch : Chan) : State :=
  s.modChan ch (fun c =>
    let row := c.row
    let defer := s.bursting && decide (c.wanted ≠ c.rng)
    { c with
      src := if row = 1 ∨ row = 2 then 1 else if row = 3 then 2 else 0, pinconf := decide (row = 2), pend := defer,
      prng := defer && c.wanted })

/-- A burst begins (R115): a change of range that has not yet taken effect is deferred from now on (R129). -/
def State.startBurst (s : State) (t : Ctx) : State :=
  allChans.foldl (fun s ch => s.settleChannel ch) (s.beginBurst t)

/-! ### Own context block -/

/-- CXCAP (R115): the write clears CAPREF and sets LEN and ARMS; BURST = 1 begins a burst or is refused, BURST = 0 ends
one. -/
def State.writeCap (s : State) (t : Ctx) (v : Word) : State :=
  let s := s.modCtx t (fun c => { c with cap := { c.cap with capref := false, arms := v.getLsbD 1, len := v.extractLsb' 8 28 } })
  if v.getLsbD 0 then
    if (s.ctx t).cap.burst then s
    else if s.granted t mCapture && s.inAct mCapture && !s.proofOpen then s.startBurst t
    else s.modCtx t (fun c => { c with cap := { c.cap with capref := true } })
  else s.endBurst t endWritten

/-- RSTAT (Table MC-1, R222, R224): shifts, at most 23, and modes, W1C of OVA and ROV, and the accumulators' guard bits. -/
def Arch.writeRstat (a : Arch) (v : Word) : Arch :=
  { a with
    rsh := Nat.min (v.extractLsb' 0 5).toNat 23, wsh := Nat.min (v.extractLsb' 5 5).toNat 23, out18 := v.getLsbD 10, conj := v.getLsbD 11,
    neg := v.getLsbD 12, alt := v.getLsbD 13, ova := a.ova && !v.getLsbD 14, rov := a.rov && !v.getLsbD 15,
    acr := v.extractLsb' 16 4 ++ a.acr.extractLsb' 0 36, aci := v.extractLsb' 20 4 ++ a.aci.extractLsb' 0 36 }

/-- Checkpointed registers by offset (Tables HW-6 and MC-1); an RO field ignores the write. -/
def Arch.writeReg (a : Arch) (r : Nat) (v : Word) : Arch :=
  if 0x10 ≤ r ∧ r < 0x13 then { a with lc := a.lc.set (Fin.ofNat 3 (r - 0x10)) v }
  else if 0x13 ≤ r ∧ r < 0x16 then { a with ls := a.ls.set (Fin.ofNat 3 (r - 0x13)) (v.extractLsb' 0 19) }
  else if 0x16 ≤ r ∧ r < 0x19 then { a with le := a.le.set (Fin.ofNat 3 (r - 0x16)) (v.extractLsb' 0 19) }
  else if 0x1a ≤ r ∧ r < 0x22 then { a with ops := a.ops.set (Fin.ofNat 8 (r - 0x1a)) (v.extractLsb' 0 11) }
  else
    match r with
    | 0x01 => { a with rswrap := v.getLsbD 0, rconv := v.getLsbD 1, sat := v.getLsbD 2 }
    | 0x08 => { a with bk := v.extractLsb' 0 7 }
    | 0x09 => { a with src := v.extractLsb' 0 18 }
    | 0x0a => { a with dst := v.extractLsb' 0 18 }
    | 0x0b => { a with cnt := v }
    | 0x0c => { a with crcp := v.extractLsb' 0 32 }
    | 0x0d => { a with crcw := v.extractLsb' 0 6, crcRefl := v.getLsbD 6 }
    | 0x0e => { a with crca := v.extractLsb' 0 32 }
    | 0x0f => { a with scmask := v }
    | 0x22 => { a with xp := v.extractLsb' 0 11 }
    | 0x23 => { a with yp := v.extractLsb' 0 11 }
    | 0x24 => { a with xstep := v.extractLsb' 0 33 }
    | 0x25 => { a with ystep := v.extractLsb' 0 33 }
    | 0x26 => a.writeRstat v
    | 0x27 => { a with rbx := v.extractLsb' 0 6 }
    | _ => a

/-- A write of offset `r` of context `t`'s own block. RO and, after boot, RWL fields ignore it; LCTL waits for RETB.
Log 14, DEDUCED. -/
def State.writeCtx (s : State) (t : Ctx) (r : Nat) (v : Word) : State :=
  match r with
  | 0x02 => s.modCtx t (fun c => { c with ben := v.extractLsb' 0 7 })
  | 0x03 => s.modCtx t (fun c => { c with bellv := v.extractLsb' 0 19 })
  | 0x04 => s.modCtx t (fun c => { c with bepc := v.extractLsb' 0 19 })
  | 0x19 => s.modCtx t (fun c => { c with lctl := some (v.extractLsb' 0 2) })
  | 0x33 => (s.writeCap t v).retarget
  | _ => s.modArch t (fun a => a.writeReg r v)

/-! ### Range claims (R128, R129) -/

/-- Whether tenant `t` holds a losing pin on the channel. -/
def Channel.loses (c : Channel) (t : Ctx) : Bool := decide (c.row = 2) && decide (c.claims[t] = claimPin16)

/-- One losing pin (R128, R344): counted on the channel and in GACONF, flagged, and a C1 CONFLICT. -/
def State.losePin (s : State) (ch : Chan) (t : Ctx) : State :=
  let s := (s.modChan ch (fun c => { c with rconf := satInc c.rconf })).flag t 3
  let s := { s with gauge := { s.gauge with confPin := satInc s.gauge.confPin } }
  s.c1 0x4e 2 (t.val * 256 + ch.val) none

/-- The lower modes of code F that tenant `t`'s recipe works under (R102). -/
def State.lowerModes (s : State) (t : Ctx) : List Nat :=
  [mOrder, mEnvelope, mSurvey].filter (fun m => s.granted t m && s.inAct m)

/-- Mode `m` loses to the burst of context `b`, once in that burst (R104, code F). -/
def State.loseBurst (s : State) (b : Ctx) (m : Nat) : State :=
  if (s.ctx b).cap.counted.getLsbD m then s
  else (s.loseMode m).modCtx b (fun c => { c with cap := { c.cap with counted := c.cap.counted ||| (1#8 <<< m) } })

/-- A change that tenant `t` asks for is deferred: each lower mode that its recipe works under loses at its first deferral in each burst
under way (R104, code F). -/
def State.loseF (s : State) (t : Ctx) : State :=
  (allCtx.filter (fun b => (s.ctx b).cap.burst)).foldl (fun s b => (s.lowerModes t).foldl (fun s m => s.loseBurst b m) s) s

/-- A change of a claim takes effect on the channel (R128). -/
def State.writeClaim (s : State) (t : Ctx) (ch : Chan) (v : Word) : State :=
  let old := s.chan ch
  let s := s.modChan ch (fun c => { c with claims := c.claims.set t (v.extractLsb' 0 2) })
  let new := s.chan ch
  let s := s.settleChannel ch
  let s := (allCtx.filter (fun u => new.loses u && !old.loses u)).foldl (fun s u => s.losePin ch u) s
  if (s.chan ch).pend && decide (new.wanted ≠ old.wanted) then s.loseF t else s

/-! ### Gauge floors (R344, R345, R351) -/

/-- A floor that the ceiling or an open PROOF window puts out of force counts once for the episode or the window. -/
def State.checkFloor (s : State) (t : Ctx) : State :=
  let conflict (s : State) : State :=
    ({ s with gauge := { s.gauge with confDvfs := satInc s.gauge.confDvfs } }).c1 0x4e 0 (t.val * 256 + s.floorOf t) none
  let s :=
    if s.gauge.ceiling < 14 ∧ s.gauge.ceiling < s.floorOf t ∧ s.gauge.outOf.getLsbD t.val = false then
      let s := conflict s
      { s with gauge := { s.gauge with outOf := s.gauge.outOf ||| (1#16 <<< t.val) } }
    else s
  if s.proofOpen ∧ 10 < s.floorOf t ∧ s.gauge.outWin.getLsbD t.val = false then
    let s := conflict s
    { s with gauge := { s.gauge with outWin := s.gauge.outWin ||| (1#16 <<< t.val) } }
  else s

/-- GAFLOORt: a step above 14 stores 14. -/
def State.writeFloor (s : State) (t : Ctx) (v : Word) : State :=
  let n := (v.extractLsb' 0 4).toNat
  let s := { s with gauge := { s.gauge with floors := s.gauge.floors.set t (BitVec.ofNat 4 (Nat.min n 14)) } }
  s.checkFloor t

/-- GASFLt: four floors of nine bits. -/
def State.writeSfl (s : State) (t : Ctx) (v : Word) : State :=
  let f : Vector (BitVec 9) 4 := #v[v.extractLsb' 0 9, v.extractLsb' 9 9, v.extractLsb' 18 9, v.extractLsb' 27 9]
  { s with gauge := { s.gauge with sfl := s.gauge.sfl.set t f } }

def State.writeGauge (s : State) (t : Ctx) (r : Nat) (v : Word) : State :=
  if r = 0x10 + t.val then s.writeFloor t v else if r = 0x20 + t.val then s.writeSfl t v else s

/-! ### Meander (R284 to R286, R289) -/

/-- Whether a clock source may not be selected (Table MN-4; Table MN-5, code 08h). A chain of neighbour selections runs
to lower regions only and cannot close. -/
def State.badSource (s : State) (r : Region) (src : Nat) : Bool :=
  decide (4 < src)
  || (decide (src = 4) && (decide (r.val = 0) || decide ((s.region (Fin.ofNat 16 (r.val + 15))).owner ≠ (s.region r).owner)))

/-- MNCLK (R284, R285): the change is under way until CLOCK_SWITCH_COMPLETE. -/
def State.writeClk (s : State) (r : Region) (v : Word) : State :=
  let src : BitVec 3 := v.extractLsb' 0 3
  if s.badSource r src.toNat then s.modRegion r (fun x => { x with cfgerr := true })
  else s.modRegion r (fun x => { x with sw := true, newSource := src, newDiv := v.extractLsb' 3 8 })

/-- MNRCFG (R286): a request joins the engine's queue, unless its slot is empty or one is pending or under way.
Log 46, DEDUCED. -/
def State.writeRcfg (s : State) (r : Region) (v : Word) : State :=
  let slot : BitVec 2 := v.extractLsb' 0 2
  let x := s.region r
  let busy := x.reqSlot.isSome || (match s.mea.engine with
    | some e => decide (e.1 = r)
    | none => false)
  if v.getLsbD 2 then
    if busy || !x.slots.getLsbD slot.toNat then s.modRegion r (fun x => { x with cfgerr := true })
    else
      let s := s.modRegion r (fun x => { x with reqSlot := some slot, rslot := slot })
      { s with mea := { s.mea with queue := s.mea.queue ++ [r] } }
  else s.modRegion r (fun x => { x with rslot := slot })

def State.writeRegion (s : State) (r : Region) (o : Nat) (v : Word) : State :=
  match o with
  | 0x00 => if v.getLsbD 12 then s.modRegion r (fun x => { x with cfgerr := false }) else s
  | 0x01 => s.writeClk r v
  | 0x02 => s.writeRcfg r v
  | 0x04 => s.modRegion r (fun x => { x with paddr := v.extractLsb' 0 18 })
  | 0x05 => s.modRegion r (fun x => { x with pend := v.extractLsb' 0 18 })
  | _ => s

/-- MNTAPk by tenant `t`: only with a region that `t` owns. -/
def State.writeTap (s : State) (t : Ctx) (k : Nat) (v : Word) : WriteOut :=
  let r : BitVec 4 := v.extractLsb' 0 4
  if (s.region r.toFin).owner = some t then
    let bit : BitVec 16 := 1#16 <<< k
    .done { s with mea := { s.mea with
      tapRegion := s.mea.tapRegion.set (Fin.ofNat 16 k) r,
      tapValid := if v.getLsbD 4 then s.mea.tapValid ||| bit else s.mea.tapValid &&& ~~~bit } }
  else .refused

/-! ### Labels (R259) -/

def State.writeLabel (s : State) (t : Ctx) (v : Word) : WriteOut :=
  let q : BitVec 4 := v.extractLsb' 0 4
  if s.ownsClass t q.toNat then .done { s with weir := { s.weir with labels := s.weir.labels.set t q } } else .refused

/-! ### Any register -/

/-- A write by tenant `t`: the grant of Table HR-3, value-dependent refusals, then field access (R366). -/
def State.regWrite (s : State) (t : Ctx) (a : RegAddr) (v : Word) : WriteOut :=
  if !s.writeGrant t a then .refused
  else
    match a.block with
    | .context => .done (s.writeCtx t a.off v)
    | .strip => s.writeStrip (stripOf a.inst) a.off v
    | .inOut => s.writeInOut t (stripOf a.inst) a.off v
    | .channel => .done (s.writeClaim t (Fin.ofNat 12 a.inst) v)
    | .region => .done (s.writeRegion (Fin.ofNat 16 a.inst) a.off v)
    | .mnCommon => s.writeTap t a.off v
    | .weirCommon => s.writeLabel t v
    | .gauge => .done (s.writeGauge t a.off v).retarget
    | _ => .refused

/-- The side effect of a read: CTSIXL and PTNS latch for the reader (R369). -/
def State.latch (s : State) (t : Ctx) (a : RegAddr) : State :=
  match a.block, a.off with
  | .ctCommon, 0 => s.modCtx t (fun c => { c with ctsixh := s.time.si.extractLsb' 36 28 })
  | .ptp, 0x0c => s.modCtx t (fun c =>
      { c with ptsecl := BitVec.ofNat 36 (s.ringNs / sec), ptsech := BitVec.ofNat 12 (s.ringNs / sec / 2 ^ 36) })
  | _, _ => s

/-- CTSIXL and PTNS. -/
def RegAddr.latches (a : RegAddr) : Bool :=
  (decide (a.block = .ctCommon) && decide (a.off = 0)) || (decide (a.block = .ptp) && decide (a.off = 0x0c))

/-- The interface PD, which holds the register bus (Table TR-1). -/
def niPd : NiId := 0x17

/-- The packets of a register transaction outside the own block (R369). -/
def State.busTrip (s : State) (t : Ctx) (a : RegAddr) (out back : Nat) : State :=
  if a.block = .context then s
  else
    let n := unitNi (s.ctx t).unit
    (s.forward n niPd out).forward niPd n back

/-- A register transaction goes out and back within its instruction: nothing befalls it, and a tag is open. -/
def State.busOpen (s : State) (t : Ctx) (i : BitVec 13) : Bool :=
  s.net.fates.isEmpty && (s.fillOf t false (i.zeroExtend 18)).isNone && (s.nextTag (unitNi (s.ctx t).unit)).isSome

/-- PD performs a REGRD or REGWR of context `t`: the new state with the response, none where the access changes nothing but draws ERR. -/
def State.performReg (s : State) (t : Ctx) (a : RegAddr) (v : Option Word) (bad : Bool) : State × Response :=
  match v with
  | none => (s.latch t a, .rdata [((s.regRead t a).zeroExtend 72, false)])
  | some w =>
    if bad then (s, .err 1)
    else
      match s.regWrite t a w with
      | .done s' => (s', .ack)
      | _ => (s, .err 2)

/-- A register transaction that something befalls (R237, R241): its packet, what PD does, and its response. -/
def State.busSend (s : State) (t : Ctx) (i : BitVec 13) (a : RegAddr) (v : Option Word) (tag : BitVec 6) : State :=
  let n := unitNi (s.ctx t).unit
  let x := (s.addFill t false (i.zeroExtend 18) 0 tag).takeFate
  let p : Packet :=
    { cmd := if v.isSome then cmdRegwr else cmdRegrd,
      req := { src := n, dest := niPd, ten := t, qc := s.label t, tag := tag, len := 0, addr := i.zeroExtend 23,
               purpose := .register t i, damage := x.1.damage, ecc := [] },
      units := (v.map (fun w => w.zeroExtend 72)).toList, bad := false, own := true, posted := false, back := x.1.back,
      stage := .atNi, since := 0 }
  match x.2.inject p with
  | (none, s) => s
  | (some p, s) =>
    let y := s.performReg t a v p.bad
    y.1.answer n tag y.2

/-- The response to a register transaction that something has befallen: the instruction waits for it, and for its timeout if it never
comes. -/
def State.busReply (s : State) (t : Ctx) (i : BitVec 13) : Res (BitVec 72) :=
  (s.asked t false (i.zeroExtend 18) 0).bind (fun s r => .ok s (r.1.getD 0 (0, false)).1)

/-- A register transaction for its response: sent once. -/
def State.busWait (s : State) (t : Ctx) (i : BitVec 13) (a : RegAddr) (v : Option Word) : Res (BitVec 72) :=
  match s.fillOf t false (i.zeroExtend 18), s.nextTag (unitNi (s.ctx t).unit) with
  | some _, _ => s.busReply t i
  | none, none => .stall s
  | none, some tag => (s.busSend t i a v tag).busReply t i

/-- The value of a granted read pushed, with its latch. -/
def State.readPush (s : State) (t : Ctx) (a : RegAddr) (word : Word) : Res Flow :=
  let v := s.regRead t a
  (((s.busTrip t a 1 2).latch t a).pushes t [v] word).seq

/-- A read of a popped index (R193): HRSX, HRSP, or the value. -/
def State.readIndex (s : State) (t : Ctx) (i word : Word) : Res Flow :=
  let data : Word := (indexOf i).zeroExtend 36
  match decodeIndex (indexOf i) with
  | none => .raise s (syncCause causeHrsx data)
  | some a =>
    if !s.readGrant t a then .raise s (syncCause causeHrsp data)
    else if a.latches && (s.ctx t).spec.isSome then .stall s
    else if decide (a.block = .context) || s.busOpen t (indexOf i) then s.readPush t a word
    else (s.busWait t (indexOf i) a none).bind (fun s u => (s.pushes t [u.extractLsb' 0 36] word).seq)

/-- A write of a popped index (R193). -/
def State.writeIndex (s : State) (t : Ctx) (i : BitVec 13) (v : Word) : Res Flow :=
  let data : Word := i.zeroExtend 36
  let next : Flow := .jump ((s.ctx t).pc + 1)
  match decodeIndex i with
  | none => .raise s (syncCause causeHrsx data)
  | some a =>
    match s.regWrite t a v with
    | .done s' =>
      if decide (a.block = .context) || s.busOpen t i then .ok (s'.busTrip t a 2 1) next
      else (s.busWait t i a (some v)).bind (fun s _ => .ok s next)
    | .refused => .raise s (syncCause causeHrsp data)
    | .cause r => .raise s { r with data := some data }

/-! ### The instructions -/

/-- HRD. -/
def State.hrd (s : State) (t : Ctx) (field : BitVec 11) : State :=
  s.plainOp t 0x22 field (fun s => s.zeroField (longWord 0x22 field) field allZero (fun s =>
    s.pops t 1 (longWord 0x22 field) (fun s xs => s.readIndex t (xs.getD 0 0) (longWord 0x22 field))))

/-- HWR: ( v i -- ). -/
def State.hwr (s : State) (t : Ctx) (field : BitVec 11) : State :=
  s.systemOp t 0x23 field (fun s => s.zeroField (longWord 0x23 field) field allZero (fun s =>
    s.pops t 2 (longWord 0x23 field) (fun s xs => s.writeIndex t (indexOf (xs.getD 0 0)) (xs.getD 1 0))))

/-- HRDC r. -/
def State.hrdc (s : State) (t : Ctx) (field : BitVec 11) : State :=
  s.plainOp t 0x24 field (fun s => s.zeroField (longWord 0x24 field) field 0x7c0 (fun s =>
    s.readPush t { block := .context, inst := t.val, off := field.toNat % 64 } (longWord 0x24 field)))

/-- HWRC r: ( v -- ). -/
def State.hwrc (s : State) (t : Ctx) (field : BitVec 11) : State :=
  s.systemOp t 0x25 field (fun s => s.zeroField (longWord 0x25 field) field 0x7c0 (fun s =>
    s.pops t 1 (longWord 0x25 field) (fun s xs =>
      s.writeIndex t (BitVec.ofNat 13 (64 * t.val + field.toNat % 64)) (xs.getD 0 0))))

def execHrd (t : Ctx) (field : BitVec 11) (s : State) : Out := .next (s.hrd t field)
def execHwr (t : Ctx) (field : BitVec 11) (s : State) : Out := .next (s.hwr t field)
def execHrdc (t : Ctx) (field : BitVec 11) (s : State) : Out := .next (s.hrdc t field)
def execHwrc (t : Ctx) (field : BitVec 11) (s : State) : Out := .next (s.hwrc t field)

/-! ### Rows for single registers: the instruction when its index (for HWR, on top of the stack) names the register -/

/-- The register that an HRD or HWR with this stack names. -/
def Context.named (c : Context) : Option RegAddr := decodeIndex (indexOf (c.arch.ds.getD 0 0))

/-- HWR when `sel` accepts the register named and the value below the index; any other state is no such event. -/
def State.hwrTo (s : State) (t : Ctx) (sel : RegAddr → Word → Bool) : State :=
  match (s.ctx t).named with
  | some a => if sel a ((s.ctx t).arch.ds.getD 1 0) then s.hwr t 0 else s
  | none => s

/-- HWR or HWRC to offset `r` of the own block, with a value that `sel` accepts. -/
def State.ownTo (s : State) (t : Ctx) (via : Via) (r : Nat) (sel : Word → Bool) : State :=
  match via with
  | .hwr => s.hwrTo t (fun a v => decide (a = { block := .context, inst := t.val, off := r }) && sel v)
  | .hwrc => if sel ((s.ctx t).arch.ds.getD 0 0) then s.hwrc t (BitVec.ofNat 11 r) else s

/-- HRD of one register. -/
def State.hrdOf (s : State) (t : Ctx) (a : RegAddr) : State := if (s.ctx t).named = some a then s.hrd t 0 else s

def execLctlWrite (t : Ctx) (via : Via) (s : State) : Out := .next (s.ownTo t via 0x19 (fun _ => true))
def execRstatWrite (t : Ctx) (via : Via) (s : State) : Out := .next (s.ownTo t via 0x26 (fun _ => true))
def execCaptureTrigger (t : Ctx) (via : Via) (s : State) : Out := .next (s.ownTo t via 0x33 (fun v => v.getLsbD 0))
def execCaptureArm (t : Ctx) (via : Via) (s : State) : Out := .next (s.ownTo t via 0x33 (fun v => v.getLsbD 1))
def execCaptureStop (t : Ctx) (via : Via) (s : State) : Out := .next (s.ownTo t via 0x33 (fun v => !v.getLsbD 0))
def execCtsixlRead (t : Ctx) (s : State) : Out := .next (s.hrdOf t { block := .ctCommon, inst := 0, off := 0 })
def execPtnsRead (t : Ctx) (s : State) : Out := .next (s.hrdOf t { block := .ptp, inst := 0, off := 0x0c })

/-- HWR to a register of a block, at offsets that `off` accepts. -/
def State.hwrBlock (s : State) (t : Ctx) (b : Block) (off : Nat → Bool) : State :=
  s.hwrTo t (fun a _ => decide (a.block = b) && off a.off)

def execCtclaimWrite (t : Ctx) (s : State) : Out := .next (s.hwrBlock t .channel (fun o => decide (o < 16)))
def execInctlWrite (t : Ctx) (s : State) : Out := .next (s.hwrBlock t .inOut (fun o => decide (o = 0)))
def execInrelWrite (t : Ctx) (s : State) : Out := .next (s.hwrBlock t .inOut (fun o => decide (o = 2)))
def execInloadWrite (t : Ctx) (s : State) : Out := .next (s.hwrBlock t .inOut (fun o => decide (o = 6)))
def execOutctlWrite (t : Ctx) (s : State) : Out := .next (s.hwrBlock t .inOut (fun o => decide (o = 7)))
def execBrctlWrite (t : Ctx) (s : State) : Out := .next (s.hwrBlock t .strip (fun o => decide (o = 0)))
def execWrlabWrite (t : Ctx) (s : State) : Out := .next (s.hwrBlock t .weirCommon (fun o => decide (o < 16)))
def execGafloorWrite (t : Ctx) (s : State) : Out := .next (s.hwrBlock t .gauge (fun o => decide (o / 16 = 1)))
def execGasflWrite (t : Ctx) (s : State) : Out := .next (s.hwrBlock t .gauge (fun o => decide (o / 16 = 2)))
def execMntapWrite (t : Ctx) (s : State) : Out := .next (s.hwrBlock t .mnCommon (fun o => decide (o < 16)))
def execMnclkWrite (t : Ctx) (s : State) : Out := .next (s.hwrBlock t .region (fun o => decide (o = 1)))
def execMnrcfgWrite (t : Ctx) (s : State) : Out := .next (s.hwrBlock t .region (fun o => decide (o = 2)))

end Sys2Proof.Machine
end

