-- ==== Sys2Proof/Machine/Buddies.lean ====
section
/-! DEFINITION. Taking a Millrace message (R310, R311), and the buddies: PULSE, LOSS, GOING, their loss and return, and VIGIL
(R26, R313 to R317, R373, Table MD-2). -/

namespace Sys2Proof

def Message.type (m : Message) : Nat := (byteAt m.bytes 1).toNat
def Message.body (m : Message) : List Byte := m.bytes.drop 16
def Message.tag (m : Message) : BitVec 16 := BitVec.ofNat 16 (fieldBE m.bytes 4 2)
def Message.socket (m : Message) : Byte := byteAt m.bytes 6
def Message.serial (m : Message) : BitVec 64 := BitVec.ofNat 64 (fieldBE m.bytes 8 8)

/-- The header rules of Table MR-1 for a received message: version, length and the zero bits of the flags. -/
def Message.headOk (m : Message) : Bool :=
  decide (16 ≤ m.bytes.length) && decide (byteAt m.bytes 0 = 1) && decide (fieldBE m.bytes 2 2 = m.body.length)
  && decide ((byteAt m.bytes 7).toNat ≤ (if m.type = 2 then 1 else 0))

/-- The body rules of the fixed layouts: length and reserved bytes. -/
def Message.bodyOk (m : Message) : Bool :=
  let b := m.body
  match m.type with
  | 0x01 => decide (b.length = 16) && decide ((byteAt b 12).toNat ≤ 3) && decide ((byteAt b 13).toNat < 64)
  | 0x03 => decide (11 ≤ b.length) && decide (b.length ≤ 1450)
  | 0x05 => decide (b.length = 22)
  | 0x06 =>
    let n := (byteAt b 8).toNat
    decide (1 ≤ n) && decide (n ≤ 64) && decide (b.length = 12 + 6 * n) && nil b 9 3
    && (List.range n).all (fun i => decide ((byteAt b (13 + 6 * i)).toNat ≤ 1))
  | 0x07 => decide (b.length = 199) && decide (byteAt b 0 = 1)
  | 0x08 => decide (b.length = 24)
  | 0x09 => decide (b.length = 16) && nil b 15 1
  | 0x0a => decide (b.length = 16) && nil b 7 1
  | 0x0b => true
  | _ => false
where
  nil (b : List Byte) (off n : Nat) : Bool := (slice b off n).all (fun x => decide (x = 0))

end Sys2Proof

namespace Sys2Proof.Machine

/-! ### Taking a message -/

/-- How Table MR-2 addresses a type that the node takes. -/
def State.addressed (s : State) (m : Message) : Bool :=
  if m.type = 3 ∨ m.type = 0x0b then decide (m.dst = s.address) else decide (m.dst = nodeGroup)

/-- A BUNDLE or RESTART for another node, which this one relays without taking it (Table LN-2, row 6). -/
def State.elsewhere (s : State) (m : Message) : Bool :=
  (decide (m.type = 3) || decide (m.type = 0x0b)) && !m.dst.getLsbD 40 && decide (m.dst ≠ s.address)

/-- Types that are taken only from the keeper: BUNDLE, TIME-AUX, ROLL, the census query and RESTART. -/
def keeperOnly (type : Nat) : Bool := [3, 5, 6, 7, 0x0b].contains type

def State.fromKeeper (s : State) (m : Message) : Bool := decide (s.keeperAddr = some m.src)

/-- Whether the node can consume frames: the main die is up, in RUN or during a stop (R299, R373). -/
def State.consumes (s : State) : Bool := decide (s.power.phase = .run) || decide (s.power.phase = .stopping)

/-- A message of type `type` taken by R311: `f` acts on it; a malformed one is counted in RMBAD. -/
def State.take (s : State) (m : Message) (type : Nat) (f : State → State) : State :=
  if m.type ≠ type ∨ s.consumes = false then s
  else if !(m.headOk && m.bodyOk && (s.addressed m || s.elsewhere m)) then { s with mill := { s.mill with bad := satInc s.mill.bad } }
  else if s.elsewhere m || (keeperOnly type && !s.fromKeeper m) then s
  else f s

/-! ### PULSE -/

/-- The PULSE body (R313). -/
def State.pulseBody (s : State) : List Byte :=
  let f (i : Nat) (b : Bool) : Nat := if b then 2 ^ i else 0
  bytesBE s.lock.nonce.toNat 8 ++ bytesBE s.mill.pulses.toNat 4
    ++ [(s.tfind 0).verdict.code,
        BitVec.ofNat 8 (f 0 s.power.hale + f 1 (s.inAct mVigil) + f 2 (s.inAct mHold) + f 3 s.lock.house
          + f 4 (decide (s.ptp.state = .locked)) + f 5 s.modes.parked),
        s.modes.act, BitVec.ofNat 8 ((s.mill.buddies.filter (fun b => (s.socket b).lost)).length)]

/-- Send one PULSE: its count is one higher than the last. -/
def State.sendPulse (s : State) : State :=
  if s.speaks then
    let s := { s with mill := { s.mill with pulses := s.mill.pulses + 1 } }
    s.sendMillrace nodeGroup 0x01 0 s.pulseBody
  else s

/-- PULSE_SEND (R313): 100 ms, with its tolerance of 1 ms, after the last. -/
def execPulseSend (s : State) : Out :=
  if s.speaks ∧ (s.mill.pulses = 0 ∨ s.passed s.mill.pulseAt (99 * ms) = true) then
    .next { s.sendPulse with mill := { s.sendPulse.mill with pulseAt := s.now } }
  else .next s

/-! ### Loss and return -/

/-- No buddy is declared lost and no LOSS is sent while this holds (R373): before the first house verdict, while the brown-out
filter runs, and during a stop. -/
def State.lossQuiet (s : State) : Bool := !s.speaks || s.power.filter.isSome

/-- The BUDDY entry of an F2h finding (Table FL-5). Log 91, DEDUCED. -/
def State.buddyFinding (s : State) (b : BitVec 6) (event : Byte) (basis : Byte) : State :=
  s.formSystem 0xf2 (sysEntry 0x0011 ([b.zeroExtend 8, event, basis] ++ bytesBE s.ringUs 8))

/-- The LOSS body (R316). -/
def State.lossBody (s : State) (b : BitVec 6) : List Byte :=
  let m := s.socket b
  [b.zeroExtend 8, m.basis.zeroExtend 8, if m.basis = 2 then m.goCause.zeroExtend 8 else 0, if s.inAct mVigil then 1 else 0]
    ++ bytesBE m.serial.toNat 8 ++ bytesBE m.count.toNat 4 ++ bytesBE m.ringUs.toNat 8

def State.sendLoss (s : State) (b : BitVec 6) : State :=
  (s.modSocket b (fun m => { m with lossAt := s.now })).sendMillrace nodeGroup 0x08 0 (s.lossBody b)

/-- VIGIL enters at the first lost buddy and leaves at the return of the last (Table MD-2); its causes are raised whether or
not it is permitted (R100). -/
def State.settleVigil (s : State) : State :=
  let on := s.modes.hw.getLsbD mVigil
  let lost := s.mill.buddies.any (fun b => (s.socket b).lost)
  let mark (late : Bool) : State := { s with modes := { s.modes with vigilLate := late } }
  if lost && !on then (mark s.proofOpen).hwMode mVigil true 0 [plainCause causeVigil 1]
  else if !lost && on then (mark false).hwMode mVigil false 0 [plainCause causeVigil 2]
  else s

/-- Whether socket `b` is a present buddy that is not lost. -/
def State.watched (s : State) (b : BitVec 6) : Bool :=
  s.mill.buddies.contains b && (s.socket b).present && !(s.socket b).lost

/-- A present buddy is declared lost (R315). Log 89, DEDUCED. -/
def State.declareLost (s : State) (b : BitVec 6) (basis : BitVec 2) : State :=
  if s.watched b && !s.lossQuiet then
    let s := s.modSocket b (fun m => { m with lost := true, basis := basis, losses := satInc m.losses })
    (s.settleVigil.sendLoss b).buddyFinding b 1 (basis.zeroExtend 8)
  else s

/-- Hold a loss event while the brown-out filter runs (R373). -/
def State.holdLoss (s : State) (h : HeldLoss) : State := { s with power := { s.power with held := s.power.held ++ [h] } }

/-- A PULSE of buddy `b` at the receiver's tag (R26, R314, R315, R373): it is present, and a loss ends, one by GOING only with a new
run nonce. -/
def State.buddyPulse (s : State) (b : BitVec 6) (newRun : Bool) : State :=
  let old := s.socket b
  let back := old.lost && (newRun || decide (old.basis ≠ 2))
  let s := s.modSocket b (fun m => { m with present := m.present || s.speaks || !m.early, lost := m.lost && !back })
  if back then (s.settleVigil).buddyFinding b 2 (old.basis.zeroExtend 8) else s

/-- What a PULSE leaves in the ring map (Table MR-10). Log 90, DEDUCED. -/
def State.mapPulse (s : State) (b : BitVec 6) (m : Message) : State :=
  let p := m.body
  let st := byteAt p 13
  let nonce : BitVec 64 := BitVec.ofNat 64 (fieldBE p 0 8)
  let count : BitVec 32 := BitVec.ofNat 32 (fieldBE p 8 4)
  s.modSocket b (fun x =>
    { x with
      heard := true, serial := m.serial, verdict := (byteAt p 12).extractLsb' 0 2, hale := st.getLsbD 0, vigil := st.getLsbD 1,
      lostCnt := byteAt p 15, lastMs := s.ringMs, at_ := s.now, ringUs := BitVec.ofNat 64 s.ringUs, nonce := nonce,
      count := if x.nonce = nonce ∧ count < x.count then x.count else count })

/-- PULSE (R314): one from a node that identifies by serial belongs to no socket. -/
def State.onPulse (s : State) (m : Message) : State :=
  if 64 ≤ m.socket.toNat then s
  else
    let b : BitVec 6 := m.socket.extractLsb' 0 6
    let newRun := decide ((s.socket b).nonce ≠ BitVec.ofNat 64 (fieldBE m.body 0 8))
    let s := s.mapPulse b m
    if m.tag = s.ring.tag ∧ s.mill.buddies.contains b then s.buddyPulse b newRun else s

def execPulse (m : Message) (s : State) : Out := .next (s.take m 0x01 (fun s => s.onPulse m))

/-- BUDDY_SILENCE (R315): 520 ms without a PULSE from a present buddy. -/
def State.silence (s : State) (b : BitVec 6) : State :=
  if s.watched b && s.passed (s.socket b).at_ (520 * ms) && s.speaks then
    if s.power.filter.isSome then (if s.power.held.contains (.silence b) then s else s.holdLoss (.silence b))
    else s.declareLost b 1
  else s

def execBuddySilence (b : BitVec 6) (s : State) : Out := .next (s.silence b)

/-- LOSS_REPEAT (R315): every 10 s while the buddy stays lost. -/
def execLossRepeat (b : BitVec 6) (s : State) : Out :=
  if s.mill.buddies.contains b ∧ (s.socket b).lost ∧ s.passed (s.socket b).lossAt (10 * sec) ∧ s.lossQuiet = false then
    .next (s.sendLoss b)
  else .next s

/-- A LOSS that names the receiver draws a PULSE out of turn and counts in RMSELF (R316). -/
def State.lossOfSelf (s : State) : State := { s with mill := { s.mill with self_ := satInc s.mill.self_ } }.sendPulse

/-- LOSS (R315): a report below the highest count seen is ignored. -/
def State.onLoss (s : State) (m : Message) : State :=
  let b : BitVec 6 := (byteAt m.body 0).extractLsb' 0 6
  let count := fieldBE m.body 12 4
  if 64 ≤ (byteAt m.body 0).toNat then s
  else if s.bySerial = false ∧ s.code.latched.s = some b then s.lossOfSelf
  else if s.watched b && decide ((s.socket b).count.toNat ≤ count) && s.speaks then
    if s.power.filter.isSome then s.holdLoss (.loss m) else s.declareLost b 3
  else s

def execLoss (m : Message) (s : State) : Out := .next (s.take m 0x08 (fun s => s.onLoss m))

/-- GOING (R315, R317, R373): recorded in the ring map, and a present buddy is lost. One that comes before the first house verdict
takes the presence with it, until a PULSE after that verdict. -/
def State.onGoing (s : State) (m : Message) : State :=
  if 64 ≤ m.socket.toNat then s
  else
    let b : BitVec 6 := m.socket.extractLsb' 0 6
    let cause := byteAt m.body 0
    let early := s.find.verdictAt.isNone
    let s := s.modSocket b (fun x =>
      { x with
        goCause := cause.extractLsb' 0 3, serial := m.serial, heard := true, present := x.present && !early, early := x.early || early })
    if m.tag = s.ring.tag ∧ s.watched b ∧ s.speaks then
      if s.power.filter.isSome then s.holdLoss (.going b cause (BitVec.ofNat 64 (fieldBE m.body 3 8)))
      else s.declareLost b 2
    else s

def execGoing (m : Message) (s : State) : Out := .next (s.take m 0x09 (fun s => s.onGoing m))

/-- A held loss event acted on once the filter has ended (R373). -/
def State.actHeld (s : State) : HeldLoss → State
  | .silence b => s.silence b
  | .going b _ _ => s.declareLost b 2
  | .loss m => s.onLoss m

end Sys2Proof.Machine
end

