-- ==== Sys2Proof/Machine/Bundles.lean ====
section
/-! DEFINITION. Bundles: layout, order of checks, keys and content (R73 to R93, R168), as functions of bytes.
The cryptographic functions are those of Machine/Crypto.lean (log 6). -/

namespace Sys2Proof.Machine

/-! ### Refusal codes (Table LK-6) -/

def rfFormat : Nat := 0x01
def rfSize : Nat := 0x02
def rfTarget : Nat := 0x03
def rfRole : Nat := 0x04
def rfSignature : Nat := 0x05
def rfKeyhash : Nat := 0x06
def rfEpoch : Nat := 0x07
def rfSequence : Nat := 0x08
def rfVersion : Nat := 0x09
def rfDecrypt : Nat := 0x0a
def rfContent : Nat := 0x0b
def rfOverlap : Nat := 0x0c
def rfWindow : Nat := 0x0d
def rfClass : Nat := 0x0e
def rfAdmission : Nat := 0x0f
def rfNonce : Nat := 0x10
def rfState : Nat := 0x11

/-- The first code of a list of tests whose test fails; none when all hold. -/
def firstFail : List (Bool × Nat) → Option Nat
  | [] => none
  | (ok, code) :: rest => if ok then firstFail rest else some code

/-! ### Layout (Table LK-2) -/

/-- Kind codes (Table LK-2). -/
def Kind.code : Kind → Nat
  | .enrol => 1
  | .patch => 2
  | .charter => 3
  | .recipe => 4
  | .restart => 5

def kindOf (n : Nat) : Option Kind :=
  match n with
  | 1 => some .enrol
  | 2 => some .patch
  | 3 => some .charter
  | 4 => some .recipe
  | 5 => some .restart
  | _ => none

/-- Whether the kind is encrypted (R77). -/
def Kind.enc : Kind → Bool
  | .patch => true
  | .charter => true
  | .recipe => true
  | _ => false

/-- The largest bundle of a kind (Table LK-4); a RESTART is never staged and has no slot. -/
def Kind.maxSize : Kind → Option Nat
  | .enrol => some 1708
  | .patch => some 15372
  | .charter => some 15372
  | .recipe => some 93452
  | .restart => none

/-- Bytes of the ASCII text. -/
def ascii (s : String) : List Byte := s.toList.map (fun c => BitVec.ofNat 8 c.toNat)

/-- All of `n` bytes from `off` are zero. -/
def zeros (b : List Byte) (off n : Nat) : Bool := (slice b off n).all (fun x => decide (x = 0))

def bdContentLen (b : List Byte) : Nat := fieldBE b 28 4
def bdKind (b : List Byte) : Option Kind := kindOf (byteAt b 5).toNat
def bdTenant (b : List Byte) : Byte := byteAt b 6
def bdEpoch (b : List Byte) : Nat := (byteAt b 7).toNat
def bdVersion (b : List Byte) : Nat := fieldBE b 8 2
def bdSigCount (b : List Byte) : Nat := (byteAt b (128 + bdContentLen b)).toNat
/-- The content as it stands: ciphertext where ENC = 1. -/
def bdContent (b : List Byte) : List Byte := slice b 112 (bdContentLen b)
/-- The bundle digest (R76). -/
def bdDigest (b : List Byte) : BitVec 256 := sha256 (b.take (128 + bdContentLen b))

/-- A signature entry. -/
structure SigEntry where
  role : Nat
  key  : List Byte
  r    : List Byte
  s    : List Byte
  deriving DecidableEq, Repr

def bdEntries (b : List Byte) : List SigEntry :=
  (List.range (bdSigCount b)).map (fun i =>
    let o := 132 + bdContentLen b + 130 * i
    { role := (byteAt b o).toNat, key := slice b (o + 1) 65, r := slice b (o + 66) 32, s := slice b (o + 98) 32 })

/-- Roles in strictly ascending order, each from 1 to 4. -/
def rolesRise : Nat → List Nat → Bool
  | _, [] => true
  | lo, r :: rs => decide (lo < r) && decide (r ≤ 4) && rolesRise r rs

/-- The fields that R80's first check covers. -/
def formatOk (b : List Byte) : Bool :=
  match bdKind b with
  | none => false
  | some k =>
    let l := bdContentLen b
    let flags := fieldBE b 10 2
    decide (132 ≤ b.length) && decide (fieldBE b 0 4 = 0x4c4b4231) && decide (byteAt b 4 = 1)
    && (match k with
        | .recipe => decide ((bdTenant b).toNat < 16)
        | _ => decide (bdTenant b = 0xff))
    && (match k with
        | .charter => decide (1 ≤ bdEpoch b) && decide (bdEpoch b ≤ 127)
        | .patch => decide (1 ≤ bdEpoch b) && decide (bdEpoch b ≤ 127)
        | .enrol => decide (1 ≤ bdEpoch b) && decide (bdEpoch b ≤ 4)
        | _ => decide (bdEpoch b = 0))
    && (match k with
        | .recipe => decide (1 ≤ bdVersion b)
        | _ => decide (bdVersion b = 0))
    && decide (flags = if k.enc then 1 else 0)
    && (match k with
        | .restart => true
        | _ => zeros b 20 8)
    && (k.enc || (zeros b 32 77 && zeros b (112 + l) 16))
    && zeros b 109 3 && zeros b (129 + l) 3
    && decide (1 ≤ bdSigCount b) && decide (bdSigCount b ≤ 3)
    && rolesRise 0 ((bdEntries b).map (·.role))
    && decide (b.length = 132 + l + 130 * bdSigCount b)

def sizeOk (b : List Byte) : Bool :=
  match bdKind b with
  | some k => (match k.maxSize with
    | some m => decide (b.length ≤ m)
    | none => true)
  | none => false

/-- The signer sets of Table LK-3. -/
def rolesOk (b : List Byte) : Bool :=
  let roles := (bdEntries b).map (·.role)
  match bdKind b with
  | some .enrol => if bdEpoch b = 1 then decide (roles = [1]) else decide (roles = [1, 2, 3])
  | some .patch => decide (roles = [1])
  | some .charter => decide (roles = [2, 3])
  | some .recipe => decide (roles = [4])
  | some .restart => decide (roles = [2]) || decide (roles = [3]) || decide (roles = [2, 3])
  | none => false

def signaturesOk (b : List Byte) : Bool :=
  (bdEntries b).all (fun e => validPoint e.key && ecdsaVerify e.key (bdDigest b) e.r e.s)

/-- The checks of R80 up to and including the signatures. -/
def arrivalTests (b : List Byte) : List (Bool × Nat) :=
  [(formatOk b, rfFormat), (sizeOk b, rfSize), (decide (fieldBE b 12 8 = Config.deviceSerial.toNat), rfTarget),
   (rolesOk b, rfRole), (signaturesOk b, rfSignature)]

/-- The hash that a role's signer must have (R79), for the enrolment and recipe key given. -/
def hashOk (enrol : Option Enrolment) (recipeKey : BitVec 256) (e : SigEntry) : Bool :=
  let h := sha256 e.key
  match e.role with
  | 1 => decide (h = Config.larkorRoot)
  | 2 => (match enrol with
    | some x => decide (h = x.warden)
    | none => false)
  | 3 => (match enrol with
    | some x => decide (h = x.custodian)
    | none => false)
  | 4 => decide (h = recipeKey)
  | _ => false

def hashesOk (enrol : Option Enrolment) (recipeKey : BitVec 256) (b : List Byte) : Bool :=
  (bdEntries b).all (hashOk enrol recipeKey)

/-- The plain content (R78): none when the point, the key derivation or the tag fails. -/
def openContent (b : List Byte) : Option (List Byte) :=
  match bdKind b with
  | none => none
  | some k =>
    if k.enc then
      match deviceEcdh (slice b 32 65) with
      | none => none
      | some z =>
        gcmOpen (hkdf16 z (slice b 0 32) (ascii "Farwister bundle")) (slice b 97 12) (slice b 0 32)
          (bdContent b) (slice b (112 + bdContentLen b) 16)
    else some (bdContent b)

/-! ### ENROL (R85) -/

/-- A label: printable ASCII and then zeros. -/
def labelOk (b : List Byte) : Bool :=
  (b.dropWhile (fun x => decide (0x20 ≤ x.toNat) && decide (x.toNat ≤ 0x7e))).all (fun x => decide (x = 0))

def hashAt (c : List Byte) (off : Nat) : BitVec 256 := BitVec.ofNat 256 (fieldBE c off 32)

def enrolOf (c : List Byte) : Enrolment := { warden := hashAt c 0, custodian := hashAt c 32 }

def enrolContentOk (c : List Byte) : Bool :=
  decide (c.length = 128) && !zeros c 0 32 && !zeros c 32 32 && labelOk (slice c 64 32) && labelOk (slice c 96 32)

/-- The ENROL that its bank was fused from (R85). -/
def enrolDone (banks : List Enrolment) (b : List Byte) : Bool :=
  match banks[bdEpoch b - 1]? with
  | some e => decide (1 ≤ bdEpoch b) && decide (e = enrolOf (bdContent b))
  | none => false

/-! ### PATCH (R168) and the word checks of Table SL-5 -/

/-- The fields that PA, PB and PD name, with their increment codes. -/
def mwMoves (w : MicroWord) : List (Nat × Nat) :=
  [((mwPa w).toNat, mwIncA w), ((mwPb w).toNat, mwIncB w), ((mwPd w).toNat, mwIncD w)]

/-- Slot advance meets two different nonzero codes on one slot (R160). -/
def mwClash (w : MicroWord) : Bool :=
  mwAdvance w && (mwMoves w).any (fun f => (mwMoves w).any (fun g =>
    decide (0x7f8 ≤ f.1) && decide (f.1 = g.1) && decide (f.2 ≠ 0) && decide (g.2 ≠ 0) && decide (f.2 ≠ g.2)))

/-- Table SL-5 codes 01h to 05h and 08h. -/
def wordTests (w : MicroWord) : List (Bool × Nat) :=
  let inc := (w.extractLsb' 16 2).toNat
  [(decide (w.extractLsb' 0 12 = 0), 0x01), (decide (mwCsel w ≤ 6) || decide (mwCsel w = 8), 0x02),
   ([0, 1, 8, 9].contains (mwOutl w), 0x03), (decide (inc < 2) && !mwClash w, 0x04),
   (decide (mwSeq w % 2 = 0) || decide (mwBase w = 0), 0x05), (!mwShifts w || mwProv w, 0x08)]

/-- The targets of a word's SEQ for every COND its CSEL can give (R161, R167). -/
def targetsOf (w : MicroWord) : List Nat :=
  ((List.range 16).filter (fun c => c &&& condMask (mwCsel w) = c)).map (fun c => (mwBase w).toNat ||| c)

/-- A 96-bit word from twelve bytes, most significant first. -/
def wordAt (b : List Byte) (off : Nat) : MicroWord := BitVec.ofNat 96 (fieldBE b off 12)

/-- One entry of a PATCH: ROM address, block and four words. -/
structure PatchEntry where
  addr  : Nat
  block : Nat
  words : List MicroWord
  deriving DecidableEq, Repr

def patchEntries (c : List Byte) : List PatchEntry :=
  (List.range (byteAt c 0).toNat).map (fun i =>
    let o := 4 + 52 * i
    { addr := fieldBE c o 2, block := (byteAt c (o + 2)).toNat, words := (List.range 4).map (fun j => wordAt c (o + 4 + 12 * j)) })

/-- A patch word at ROM address `a`. -/
def patchWordOk (a : Nat) (w : MicroWord) : Bool :=
  (firstFail (wordTests w)).isNone
  && (if mwSeq w = 0 then (targetsOf w).all (fun t => decide (t < 0xc00))
      else if mwSeq w = 2 then (targetsOf w).all (fun t => decide (t < 0xc00)) && decide (a + 1 < 0xc00)
      else true)

/-- Every element differs from every later one. -/
def allDistinct : List Nat → Bool
  | [] => true
  | x :: xs => !xs.contains x && allDistinct xs

def patchContentOk (c : List Byte) : Bool :=
  let n := (byteAt c 0).toNat
  let es := patchEntries c
  decide (4 ≤ c.length) && zeros c 1 3 && decide (n ≤ 64) && decide (c.length = 4 + 52 * n)
  && es.all (fun e => decide (e.addr % 4 = 0) && decide (e.addr < 0xc00) && decide (e.block < 64)
      && (List.range 4).all (fun j => patchWordOk (e.addr + j) (e.words.getD j 0)))
  && (List.range n).all (fun i => zeros c (4 + 52 * i + 3) 1)
  && allDistinct (es.map (·.addr)) && allDistinct (es.map (·.block))

/-! ### CHARTER (R87, R88) -/

/-- A window descriptor as its bytes give it. -/
structure WinDesc where
  valid    : Bool
  eddy     : Bool
  writable : Bool
  shared   : Bool
  base     : Nat
  len      : Nat
  phys     : Nat
  deriving DecidableEq, Repr

def winAt (b : List Byte) : WinDesc :=
  let f := byteAt b 0
  { valid := f.getLsbD 7, eddy := f.getLsbD 6, writable := f.getLsbD 5, shared := f.getLsbD 4,
    base := (byteAt b 1).toNat, len := (byteAt b 2).toNat, phys := fieldBE b 4 2 }

/-- The ranges of a descriptor that test 1 covers. -/
def winRangeOk (b : List Byte) : Bool :=
  if (winAt b).valid then
    decide ((byteAt b 0).toNat % 16 = 0) && decide (0x10 ≤ (winAt b).base) && decide ((winAt b).base ≤ 0x7f)
    && decide (1 ≤ (winAt b).len) && decide ((winAt b).len ≤ 112) && zeros b 3 1 && zeros b 6 2
  else zeros b 0 8

def WinDesc.toWindow (w : WinDesc) : Window :=
  { base := BitVec.ofNat 7 w.base, len := BitVec.ofNat 7 w.len, valid := w.valid, writable := w.writable,
    eddy := w.eddy, shared := w.shared, phys := BitVec.ofNat 10 w.phys }

/-- Bytes of tenant record `t`, of window `i` of it, and of class record `q`. -/
def chTenant (c : List Byte) (t : Nat) : List Byte := slice c (8 + 96 * t) 96
def chWin (c : List Byte) (t i : Nat) : List Byte := slice (chTenant c t) (64 + 8 * i) 8
def chClass (c : List Byte) (q : Nat) : List Byte := slice c (1544 + 28 * (q - 1)) 28
def chMask (c : List Byte) : BitVec 16 := BitVec.ofNat 16 (fieldBE c 0 2)
def chHas (c : List Byte) (t : Nat) : Bool := (chMask c).getLsbD t

def popCount16 (m : BitVec 16) : Nat := ((List.range 16).filter (fun i => m.getLsbD i)).length

/-- Test 1 on a tenant record. -/
def tenantRangeOk (c : List Byte) (t : Nat) : Bool :=
  let r := chTenant c t
  if chHas c t then
    !zeros r 32 16 && decide (1 ≤ fieldBE r 48 2) && !zeros r 50 2 && decide (fieldBE r 54 2 ≤ 1023)
    && decide (fieldBE r 56 2 ≤ 1024) && decide (fieldBE r 54 2 + fieldBE r 56 2 ≤ 1024)
    && decide (1 ≤ (byteAt r 58).toNat) && decide ((byteAt r 58).toNat ≤ 16)
    && decide (1 ≤ (byteAt r 59).toNat) && decide ((byteAt r 59).toNat ≤ 15) && zeros r 60 4
    && (List.range 4).all (fun i => winRangeOk (chWin c t i))
  else zeros r 0 96

/-- Test 1 on a class record. -/
def classRangeOk (c : List Byte) (q : Nat) : Bool :=
  let r := chClass c q
  let o := (byteAt r 0).toNat
  if o = 0xff then zeros r 1 27
  else
    decide (o < 16) && chHas c o && decide ((byteAt r 1).toNat ≤ 8) && decide (1 ≤ (byteAt r 2).toNat)
    && decide ((byteAt r 2).toNat ≤ 64) && zeros r 3 1 && decide (16 ≤ fieldBE r 4 2) && zeros r 6 2
    && (List.range 4).all (fun g => decide ((byteAt r (24 + g)).toNat ≤ 32))

def chRangesOk (c : List Byte) : Bool :=
  let hal := BitVec.ofNat 16 (fieldBE c 2 2)
  let enc := BitVec.ofNat 16 (fieldBE c 4 2)
  decide (c.length = 1964) && chHas c 0 && decide (hal &&& ~~~(chMask c) = 0) && decide (popCount16 hal ≤ 4)
  && decide (enc &&& ~~~(chMask c) = 0) && zeros c 6 2
  && (List.range 16).all (tenantRangeOk c) && (List.range 15).all (fun i => classRangeOk c (i + 1))

/-- The present tenants. -/
def chTenants (c : List Byte) : List Nat := (List.range 16).filter (chHas c)

/-- Two half-open ranges of `n` from `a` and `m` from `b` have an element in common: an empty one has none. -/
def meets (a n b m : Nat) : Bool := decide (0 < n) && decide (0 < m) && decide (a < b + m) && decide (b < a + n)

/-- Pairs of different present tenants, lower first. -/
def chPairs (c : List Byte) : List (Nat × Nat) :=
  (chTenants c).flatMap (fun t => ((chTenants c).filter (fun u => decide (t < u))).map (fun u => (t, u)))

/-- Test 2. -/
def chDisjointOk (c : List Byte) : Bool :=
  (chPairs c).all (fun p =>
    let a := chTenant c p.1
    let b := chTenant c p.2
    decide (BitVec.ofNat 16 (fieldBE a 50 2) &&& BitVec.ofNat 16 (fieldBE b 50 2) = 0)
    && decide (BitVec.ofNat 16 (fieldBE a 52 2) &&& BitVec.ofNat 16 (fieldBE b 52 2) = 0)
    && !meets (fieldBE a 54 2) (fieldBE a 56 2) (fieldBE b 54 2) (fieldBE b 56 2))

/-- The valid windows of tenant `t`. -/
def chWins (c : List Byte) (t : Nat) : List WinDesc :=
  ((List.range 4).map (fun i => winAt (chWin c t i))).filter (·.valid)

/-- Two windows share physical blocks. -/
def WinDesc.physMeets (v w : WinDesc) : Bool := decide (v.eddy = w.eddy) && meets v.phys v.len w.phys w.len

/-- Every window is clear of the later ones under `bad`. -/
def clearPairs (bad : WinDesc → WinDesc → Bool) : List WinDesc → Bool
  | [] => true
  | w :: ws => ws.all (fun v => !bad w v) && clearPairs bad ws

/-- Test 3 on one window. -/
def WinDesc.placed (w : WinDesc) : Bool :=
  decide (w.base + w.len ≤ 0x80)
  && (if w.eddy then decide (16 ≤ w.phys) && decide (w.phys + w.len ≤ 32) else decide (w.phys + w.len ≤ 1024))

/-- Tests 3 and 4. -/
def chWindowsOk (c : List Byte) : Bool :=
  (chTenants c).all (fun t => (chWins c t).all WinDesc.placed
    && clearPairs (fun v w => meets v.base v.len w.base w.len || v.physMeets w) (chWins c t))
  && (chPairs c).all (fun p => (chWins c p.1).all (fun v => (chWins c p.2).all (fun w =>
      !v.physMeets w || (v.shared && w.shared))))

/-- Test 5. -/
def chClassesOk (c : List Byte) : Bool :=
  (chTenants c).all (fun t => decide ((byteAt (chClass c (byteAt (chTenant c t) 59).toNat) 0).toNat = t))

def sumOver (f : Nat → Nat) (l : List Nat) : Nat := l.foldl (fun n x => n + f x) 0

/-- Test 6 for group `g`. -/
def groupOk (c : List Byte) (g : Nat) : Bool :=
  let qs := (List.range 15).map (· + 1)
  decide (sumOver (fun q => fieldBE (chClass c q) (8 + 4 * g) 4) qs ≤ 1887436)
  && decide (sumOver (fun q => (byteAt (chClass c q) (24 + g)).toNat) qs ≤ 28)

/-- The admission tests of R88, with their codes. -/
def charterTests (c : List Byte) : List (Bool × Nat) :=
  [(chRangesOk c, rfContent), (chDisjointOk c, rfOverlap), (chWindowsOk c, rfWindow), (chClassesOk c, rfClass),
   ((List.range 4).all (groupOk c), rfAdmission)]

def tenantRecord (c : List Byte) (t : Nat) : TenantRecord :=
  let r := chTenant c t
  { recipeKey := hashAt r 0, rootKey := BitVec.ofNat 128 (fieldBE r 32 16), minVersion := BitVec.ofNat 16 (fieldBE r 48 2),
    strips := BitVec.ofNat 16 (fieldBE r 50 2), regions := BitVec.ofNat 16 (fieldBE r 52 2), slBase := fieldBE r 54 2,
    slLen := fieldBE r 56 2, quantum := (byteAt r 58).toNat, defClass := (byteAt r 59).toNat,
    windows := Vector.ofFn (fun i => (winAt (chWin c t i.val)).toWindow) }

def classRecord (c : List Byte) (q : Nat) : ClassRecord :=
  let r := chClass c q
  let o := (byteAt r 0).toNat
  if q = 0 ∨ o = 0xff then ClassRecord.unused
  else
    { owner := some (Fin.ofNat 16 o), b := (byteAt r 1).toNat, cap := (byteAt r 2).toNat, target := fieldBE r 4 2,
      budget := Vector.ofFn (fun g => fieldBE r (8 + 4 * g.val) 4), share := Vector.ofFn (fun g => (byteAt r (24 + g.val)).toNat) }

/-- The charter that admitted content gives. -/
def charterOf (c : List Byte) : Charter :=
  { halMask := BitVec.ofNat 16 (fieldBE c 2 2), encMask := BitVec.ofNat 16 (fieldBE c 4 2),
    tenants := Vector.ofFn (fun t => if chHas c t.val then some (tenantRecord c t.val) else none),
    classes := Vector.ofFn (fun q => classRecord c q.val) }

/-! ### RECIPE (R90) -/

/-- A section of a recipe. -/
structure Section where
  type    : Nat
  addr    : Nat
  payload : List Byte
  deriving DecidableEq, Repr

/-- The bytes from `n` to the next multiple of four. -/
def padOf (n : Nat) : Nat := (4 - n % 4) % 4

/-- `n` sections from the given bytes, which begin on a multiple of four; at most three zero bytes follow the last.
Log 127, DEDUCED. -/
def sectionsOf : Nat → List Byte → Option (List Section)
  | 0, b => if b.length ≤ 3 ∧ zeros b 0 3 = true then some [] else none
  | n + 1, b =>
    let len := fieldBE b 8 4
    if b.length < 12 ∨ b.length < 12 + len ∨ zeros b 1 3 = false then none
    else
      let sec : Section := { type := (byteAt b 0).toNat, addr := fieldBE b 4 4, payload := slice b 12 len }
      let rest := b.drop (12 + len)
      if n = 0 then (sectionsOf 0 rest).map (fun ss => sec :: ss)
      else if zeros rest 0 (padOf len) = true then (sectionsOf n (rest.drop (padOf len))).map (fun ss => sec :: ss)
      else none

/-- The sections of a recipe's content. -/
def recipeSections (c : List Byte) : Option (List Section) :=
  let n := fieldBE c 0 2
  if c.length < 4 ∨ n < 1 ∨ 32 < n ∨ zeros c 2 2 = false then none else sectionsOf n (c.drop 4)

/-- The 36-bit words of a payload, five bytes each. -/
def wordsOf (p : List Byte) : List Word := (List.range (p.length / 5)).map (fun i => BitVec.ofNat 36 (fieldBE p (5 * i) 5))

/-- A payload of words: whole ones with bits [39:36] zero. -/
def wordsOk (p : List Byte) : Bool :=
  decide (p.length % 5 = 0) && (List.range (p.length / 5)).all (fun i => decide ((byteAt p (5 * i)).toNat < 16))

/-- The microwords of a payload, and the context-start pairs. -/
def microOf (p : List Byte) : List MicroWord := (List.range (p.length / 12)).map (fun i => wordAt p (12 * i))
def pairsOf' (p : List Byte) : List (Nat × Word) :=
  (List.range (p.length / 7)).map (fun i => (fieldBE p (7 * i) 2, BitVec.ofNat 36 (fieldBE p (7 * i + 2) 5)))

/-- The checks of Table LK-7 on a section of tenant `t`; a context-start index is bits [12:0] of its two bytes (R364). -/
def sectionOk (t : Nat) (r : TenantRecord) (s : Section) : Bool :=
  match s.type with
  | 0x01 => wordsOk s.payload && (List.range (s.payload.length / 5)).all (fun i =>
      decide (s.addr + i < 2 ^ 18) && (findWindow r.windows.toList (BitVec.ofNat 18 (s.addr + i)) true).isSome)
  | 0x02 => wordsOk s.payload && decide (s.addr + s.payload.length / 5 ≤ 4096)
  | 0x03 => decide (s.payload.length % 12 = 0) && decide (s.addr + s.payload.length / 12 ≤ r.slLen)
      && (microOf s.payload).all (fun w => decide (w.extractLsb' 0 12 = 0))
  | 0x04 => decide (s.addr < 16) && r.regions.getLsbD s.addr
  | 0x05 => decide (s.addr < 64) && r.regions.getLsbD (s.addr / 4)
  | 0x06 => decide (s.addr = 0) && decide (s.payload.length % 7 = 0)
      && (List.range (s.payload.length / 7)).all (fun i =>
          decide (fieldBE s.payload (7 * i) 2 % 8192 / 64 = t)
          && decide ((byteAt s.payload (7 * i + 2)).toNat < 16))
  | _ => false

def recipeContentOk (t : Nat) (r : TenantRecord) (c : List Byte) : Bool :=
  match recipeSections c with
  | some ss => ss.all (sectionOk t r)
  | none => false

end Sys2Proof.Machine
end

