-- ==== Sys2Proof/Machine/Images.lean ====
section
/-! DEFINITION. Meander region images: their bytes (R277, R278, Tables MN-1 to MN-3) and the loader's checks
(R279, Table MN-5). -/

namespace Sys2Proof.Machine

/-- CRC-32 of R60: IEEE 802.3, reflected, over a byte string. -/
def crc32 (b : List Byte) : Nat :=
  (b.foldl (fun c x => crcByte 32 0x04c11db7 true c x.toNat) 0xffffffff) ^^^ 0xffffffff

/-- The little-endian number of `n` bytes from `off`: region images hold least significant bytes first. -/
def fieldLE (b : List Byte) (off n : Nat) : Nat := natBE (slice b off n).reverse

/-- Bits `off` to `off + n - 1` of a byte string, bit 0 of the first byte first. -/
def bitsLE (b : List Byte) (off n : Nat) : Nat :=
  fieldLE b (off / 8) ((off % 8 + n + 7) / 8) / 2 ^ (off % 8) % 2 ^ n

/-- Cell word `i` (Table MN-2). -/
def imgCell (b : List Byte) (i : Nat) : BitVec 21 := BitVec.ofNat 21 (bitsLE b (8 * 144 + 21 * i) 21)
def imgInput (b : List Byte) (j : Nat) : Byte := byteAt b (64 + j)
def imgOutput (b : List Byte) (k : Nat) : Byte := byteAt b (104 + k)
def imgParking (b : List Byte) (k : Nat) : BitVec 2 := BitVec.ofNat 2 (bitsLE b (80 + 2 * k) 2)

/-- The image that the bytes spell. -/
def imageOf (b : List Byte) : Image :=
  { source := BitVec.ofNat 3 (byteAt b 8).toNat, divM1 := byteAt b 9, parking := Vector.ofFn (fun k => imgParking b k.val),
    inputs := Vector.ofFn (fun j => imgInput b j.val), outputs := Vector.ofFn (fun k => imgOutput b k.val),
    cells := Vector.ofFn (fun i => imgCell b i.val) }

/-- The first word of a region's slot in EB1: unit 128 (4 r + slot) (R280). EB1 is Eddy blocks 8 to 15. -/
def slotAt (r : Region) (slot : BitVec 2) : Phys := { eddy := true, word := 16384 + 256 * (4 * r.val + slot.toNat) }

/-- The units of an image's 1 152 bytes, nine to a unit, the first lowest (R280; log 145, DESIGN CHOICE). -/
def imageUnits (b : List Byte) : List (BitVec 72) := (List.range 128).map (fun i => BitVec.ofNat 72 (fieldLE b (9 * i) 9))

/-- Cell fields (Table MN-2). -/
def cellLut (c : BitVec 21) : BitVec 16 := c.extractLsb' 0 16
def cellReg (c : BitVec 21) : Bool := c.getLsbD 16
def cellInit (c : BitVec 21) : Bool := c.getLsbD 17
def cellCe (c : BitVec 21) : Bool := c.getLsbD 18
def cellRow (c : BitVec 21) : Bool := c.getLsbD 19
def cellCol (c : BitVec 21) : Bool := c.getLsbD 20

/-- The cells that drive row track `r`, and those that drive column track `c`. -/
def rowDrivers (im : Image) (r : Nat) : List (Fin 384) :=
  (List.finRange 384).filter (fun i => decide (i.val / 16 = r) && cellRow im.cells[i])
def colDrivers (im : Image) (c : Nat) : List (Fin 384) :=
  (List.finRange 384).filter (fun i => decide (i.val % 16 = c) && cellCol im.cells[i])

/-- The cells whose outputs cell `i` reads at its inputs a to d (R275). -/
def cellInputs (im : Image) (i : Fin 384) : List (Fin 384) :=
  (if i.val % 16 = 0 then [] else [Fin.ofNat 384 (i.val - 1)])
  ++ (if i.val < 16 then [] else [Fin.ofNat 384 (i.val - 16)])
  ++ rowDrivers im (i.val / 16) ++ colDrivers im (i.val % 16)

/-- The cells of `alive` that read a cell of `alive`, taken `n` times: what is left after as many times as there are
cells lies on a closed path or behind one. -/
def onPaths (im : Image) : Nat → List (Fin 384) → List (Fin 384)
  | 0, alive => alive
  | n + 1, alive => onPaths im n (alive.filter (fun i => (cellInputs im i).any (fun j => alive.contains j)))

/-- A closed path exists through cells that all have REG = 0. -/
def closedPath (im : Image) : Bool :=
  !(onPaths im 384 ((List.finRange 384).filter (fun i => !cellReg im.cells[i]))).isEmpty

/-- How many outputs have function `f`. -/
def outputCount (b : List Byte) (f : Nat) : Nat := ((List.range 40).filter (fun k => decide ((imgOutput b k).toNat = f))).length

/-- Whether an output function is listed (Table MN-3). -/
def outputListed (f : Byte) : Bool := decide (f.toNat ≤ 2) || (decide (0x10 ≤ f.toNat) && decide (f.toNat ≤ 0x30))

/-- Whether the neighbour tree may not be named in region `r`; `owner` gives the owners (code 08h). -/
def treeBad (owner : Fin 16 → Option Ctx) (r : Region) : Bool :=
  decide (r.val = 0) || decide (owner (Fin.ofNat 16 (r.val + 15)) ≠ owner r)

/-- The checks of Table MN-5 on the payload of a section for region `r`: `full` for kind 01h. Log 57, DEDUCED. -/
def imageTests (owner : Fin 16 → Option Ctx) (r : Region) (full : Bool) (b : List Byte) : List (Bool × Nat) :=
  let im := imageOf b
  [(decide (fieldBE b 0 4 = 0x4d4e4431) && decide (byteAt b 4 = if full then 1 else 2) && decide (b.length = 1152), 0x01),
   (decide (crc32 (slice b 0 60 ++ slice b 64 1088) = fieldLE b 60 4), 0x02),
   (zeros b 5 3 && zeros b 20 40 && decide ((byteAt b 8).toNat < 8) && (full || zeros b 8 2), 0x03),
   ((List.range 40).all (fun k => outputListed (imgOutput b k) && decide (imgParking b k ≠ 3)), 0x04),
   ((List.range 24).all (fun r => decide ((rowDrivers im r).length ≤ 1))
      && (List.range 16).all (fun c => decide ((colDrivers im c).length ≤ 1)), 0x05),
   (([1, 2, 0x30] ++ (List.range 32).map (· + 0x10)).all (fun f => decide (outputCount b f ≤ 1)), 0x06),
   (!closedPath im, 0x07),
   (!(full && decide (im.source = 4) && treeBad owner r), 0x08)]

end Sys2Proof.Machine
end

