-- ==== Sys2Proof/Machine/Fabric.lean ====
section
/-! DEFINITION. One region of the fabric: its border inputs (R278), its cells and tracks (R275, R276) and what one edge
of its tree does. -/

namespace Sys2Proof.Machine

/-- The region before or after region `r`, when it exists. -/
def regionBefore (r : Region) : Option Region := if r.val = 0 then none else some (Fin.ofNat 16 (r.val - 1))
def regionAfter (r : Region) : Option Region := if r.val = 15 then none else some (Fin.ofNat 16 (r.val + 1))

/-- An output bit of a neighbour: zero when it does not exist or has another owner. -/
def State.neighbourBit (s : State) (r : Region) (n : Option Region) (k : Nat) : Bool :=
  match n with
  | some x => decide ((s.region x).owner = (s.region r).owner) && (s.region x).outs.toList.getD k false
  | none => false

/-- A direct region: its tree takes CK_S with N of 1, 2, 4 or 8 (R281). Log 114, DEDUCED. -/
def RegionSt.direct (x : RegionSt) : Bool := decide (x.source = 1) && [0, 1, 3, 7].contains x.divM1.toNat

/-- CK_S cycles since the lane frame at the border: by the region's own edges where it is direct, otherwise by time (log 81, DEDUCED). -/
def State.borderCycle (s : State) (r : Region) : Nat :=
  let x := s.region r
  if x.direct then x.edges * (x.divM1.toNat + 1) else (s.now - s.mea.frameAt) * 768 / 15625

/-- The channel bit that region `r` sees: the border holds each for the 8 CK_S cycles of its sample (R124, R281). -/
def State.channelBit (s : State) (r : Region) (ch : Chan) : Bool :=
  s.mea.samples[ch].getLsbD (Nat.min 39 (s.borderCycle r / 8))

/-- The sample strobe: 1 on the first edge that sees new channel bits. -/
def State.sampleStrobe (s : State) (r : Region) : Bool :=
  decide (s.borderCycle r < 320) && decide (s.borderCycle r % 8 = 0)

/-- What the border holds out to an input code (Table MN-3). -/
def State.borderInput (s : State) (r : Region) (code : Byte) : Bool :=
  let c := code.toNat
  if 1 ≤ c ∧ c ≤ 12 then s.channelBit r (Fin.ofNat 12 (c - 1))
  else if c = 0x0d then s.sampleStrobe r
  else if 0x20 ≤ c ∧ c < 0x48 then s.neighbourBit r (regionBefore r) (c - 0x20)
  else if 0x48 ≤ c ∧ c < 0x70 then s.neighbourBit r (regionAfter r) (c - 0x48)
  else if c = 0x70 then (s.region r).postReady
  else false

/-- What the border holds out to the input port of region `r`. -/
def State.borderInputs (s : State) (r : Region) : Vector Bool 40 := (s.region r).image.inputs.map (s.borderInput r)

/-- The input codes that reach the region through a two-flop synchroniser: neighbour bits always; channel bits, the sample strobe and
post ready where its ports are not direct (R281). -/
def RegionSt.synced (x : RegionSt) (code : Byte) : Bool :=
  let c := code.toNat
  (decide (0x20 ≤ c) && decide (c < 0x70)) || (!x.direct && (decide (1 ≤ c ∧ c ≤ 0x0d) || decide (c = 0x70)))

/-- The input port bits that the cells see. -/
def RegionSt.inputs (x : RegionSt) (border : Vector Bool 40) : Vector Bool 40 :=
  Vector.ofFn (fun j => if x.synced x.image.inputs[j] then x.sync2[j] else border[j])

/-- The synchronisers at an edge of the region's tree. -/
def RegionSt.shiftIn (x : RegionSt) (border : Vector Bool 40) : RegionSt := { x with sync1 := border, sync2 := x.sync1 }

/-- The tracks: rows 0 to 23, then columns 0 to 15. They are the output port bits (R276). -/
def tracksOf (im : Image) (out : Vector Bool 384) : Vector Bool 40 :=
  Vector.ofFn (fun k =>
    if k.val < 24 then
      (List.finRange 16).any (fun c => let i : Fin 384 := Fin.ofNat 384 (16 * k.val + c.val); cellRow im.cells[i] && out[i])
    else
      (List.finRange 24).any (fun r => let i : Fin 384 := Fin.ofNat 384 (16 * r.val + (k.val - 24)); cellCol im.cells[i] && out[i]))

/-- Input d of cell `i`: its column track. -/
def cellD (tracks : Vector Bool 40) (i : Fin 384) : Bool := tracks[(⟨24 + i.val % 16, by omega⟩ : Fin 40)]

/-- The LUT output of cell `i` from the border inputs, the cells' outputs and the tracks. -/
def cellLutOut (im : Image) (inp tracks : Vector Bool 40) (out : Vector Bool 384) (i : Fin 384) : Bool :=
  let row : Fin 24 := ⟨i.val / 16, by omega⟩
  let col : Fin 16 := ⟨i.val % 16, by omega⟩
  let a := if col.val = 0 then inp[(⟨row.val, by omega⟩ : Fin 40)] else out[Fin.ofNat 384 (i.val - 1)]
  let b := if row.val = 0 then inp[(⟨24 + col.val, by omega⟩ : Fin 40)] else out[Fin.ofNat 384 (i.val - 16)]
  let c := tracks[(⟨row.val, by omega⟩ : Fin 40)]
  let n (x : Bool) (w : Nat) : Nat := if x then w else 0
  (cellLut im.cells[i]).getLsbD (n (cellD tracks i) 8 + n c 4 + n b 2 + n a 1)

/-- One pass over the cells: a registered cell shows its flip-flop, another its LUT. -/
def passCells (im : Image) (inp : Vector Bool 40) (ffs out : Vector Bool 384) : Vector Bool 384 :=
  let tracks := tracksOf im out
  Vector.ofFn (fun i => if cellReg im.cells[i] then ffs[i] else cellLutOut im inp tracks out i)

/-- The outputs once they have settled: no closed path leads through LUTs alone (Table MN-5, code 07h), so as many passes as
there are cells suffice. -/
def settleCells (im : Image) (inp : Vector Bool 40) (ffs : Vector Bool 384) : Nat → Vector Bool 384 → Vector Bool 384
  | 0, out => out
  | n + 1, out =>
    let next := passCells im inp ffs out
    if next = out then out else settleCells im inp ffs n next

def cellsOut (im : Image) (inp : Vector Bool 40) (ffs : Vector Bool 384) : Vector Bool 384 := settleCells im inp ffs 384 ffs

/-- The flip-flops after a rising edge (R275). -/
def clockCells (im : Image) (inp : Vector Bool 40) (ffs : Vector Bool 384) : Vector Bool 384 :=
  let out := cellsOut im inp ffs
  let tracks := tracksOf im out
  Vector.ofFn (fun i =>
    if cellCe im.cells[i] && !cellD tracks i then ffs[i] else cellLutOut im inp tracks out i)

/-- Every flip-flop at INIT. -/
def Image.inits (im : Image) : Vector Bool 384 := im.cells.map cellInit

/-- The output bit with function `f`, if one has it. -/
def RegionSt.outputOf (x : RegionSt) (f : Byte) : Option Bool :=
  ((List.finRange 40).find? (fun k => decide (x.image.outputs[k] = f))).map (fun k => x.outs[k])

end Sys2Proof.Machine
end

