-- ==== Sys2Proof/Machine/Gauge.lean ====
section
/-! DEFINITION. The Gauge (19): throttling and the hard stop (R339, R340), operating points (R337, R338, R376) and the adaptive
loops (R344 to R350). -/

namespace Sys2Proof.Machine

/-! ### Die temperature (R339) -/

/-- A temperature in the units of CTTEMP: degrees times 128. -/
def degrees (n : Int) : Int := n * 128

/-- The ceiling after a reading, with the instants that pace it. Log 68, DEDUCED. -/
def Gauge.throttle (g : Gauge) (now : Nat) (t : Int) : Gauge :=
  if degrees 115 ≤ t then
    let due := match g.hot with
      | none => true
      | some x => decide (x + 500 * ms ≤ now)
    let g := if due then { g with ceiling := g.ceiling - 1, hot := some now } else g
    let g := if degrees 120 ≤ t then { g with ceiling := 0 } else g
    { g with coolFrom := none }
  else if t < degrees 112 then
    match g.coolFrom with
    | none => { g with coolFrom := some now, raisedAt := now }
    | some _ =>
      if g.ceiling < 14 ∧ g.raisedAt + 2 * sec ≤ now then { g with ceiling := g.ceiling + 1, raisedAt := now } else g
  else { g with coolFrom := none }

/-- A reading in GADIE and GADIEMX. -/
def Gauge.read (g : Gauge) (t : BitVec 16) : Gauge := { g with die := t, dieMax := if g.dieMax.toInt < t.toInt then t else g.dieMax }

/-- A millisecond of throttling in GATHR. -/
def Gauge.countThrottle (g : Gauge) : Gauge :=
  if 14 ≤ g.ceiling then g
  else if 999 ≤ g.throttleMs then { g with throttleMs := 0, seconds := satInc g.seconds }
  else { g with throttleMs := g.throttleMs + 1 }

/-- The beginning and the end of throttling: THERMAL, and the episode. -/
def State.throttleEdge (s : State) (before : Nat) : State :=
  if before = 14 ∧ s.gauge.ceiling < 14 then
    let s := { s with gauge := { s.gauge with episodes := satInc s.gauge.episodes, outOf := 0 } }
    s.signalAll 0 [plainCause causeThermal 1]
  else if before < 14 ∧ s.gauge.ceiling = 14 then
    let s := { s with gauge := { s.gauge with hot := none, outOf := 0 } }
    s.signalAll 0 [plainCause causeThermal 2]
  else s

/-- A reading of the main die in RUN. -/
def State.dieReading (s : State) (t : BitVec 16) : State :=
  let before := s.gauge.ceiling
  let s := { s with gauge := (s.gauge.read t).countThrottle }
  if degrees 125 ≤ t.toInt then s.decideStop .thermal 0
  else
    let s := { s with gauge := s.gauge.throttle s.now t.toInt }
    let s := s.throttleEdge before
    (allCtx.foldl (fun s u => s.checkFloor u) s).retarget

/-- Since when Backwater's readings have stayed at 100 degrees or below. -/
def coolAfter (since : Option Nat) (now : Nat) (t : Int) : Option Nat :=
  if t ≤ degrees 100 then some (since.getD now) else none

/-- A reading of Backwater's sensor during a hard stop (R340). -/
def State.backwaterReading (s : State) (t : BitVec 16) : State :=
  { s with
    gauge := { s.gauge with bwt := t },
    power := { s.power with coolSince := coolAfter s.power.coolSince s.now t.toInt } }

/-- DIE_TEMPERATURE_READING (R339, R340). Log 130, DEDUCED. -/
def execDieTemperatureReading (t : BitVec 16) (s : State) : Out :=
  match s.power.phase with
  | .run => .next (s.dieReading t)
  | .waitThermal => .next (s.backwaterReading t)
  | _ => .next s

/-! ### DVFS (R337, R338, R345, R346, R376) -/

/-- The demand step after an interval of busy out of total unit cycles. -/
def Gauge.demandAfter (g : Gauge) (now busy total : Nat) : Gauge :=
  let high := if 9 * total < 10 * busy then g.highRun + 1 else 0
  let low := if 2 * busy < total then g.lowRun + 1 else 0
  let g := { g with busy := BitVec.ofNat 10 (Nat.min 1023 (1024 * busy / total)), highRun := high, lowRun := low }
  if g.changedAt + 8 * ms ≤ now ∨ g.changedAt = 0 then
    if 2 ≤ high ∧ g.demand < 14 then { g with demand := g.demand + 1, highRun := 0, changedAt := now }
    else if 8 ≤ low ∧ 0 < g.demand then { g with demand := g.demand - 1, lowRun := 0, changedAt := now }
    else g
  else g

/-- DVFS_INTERVAL (R346). -/
def execDvfsInterval (busy total : Nat) (s : State) : Out :=
  if s.power.phase = .run ∧ s.modes.parked = false ∧ 0 < total then
    .next { s with gauge := s.gauge.demandAfter s.now busy total }.retarget
  else .next s

/-- OPERATING_POINT_CHANGE (R338): the change under way completes at its target, and the two CK_A PLLs change places. A new
target is taken then. -/
def execOperatingPointChange (s : State) : Out :=
  if s.power.phase ≠ .run ∨ s.modes.parked then .next s
  else
    match s.changing with
    | some j =>
      .next { s with gauge := { s.gauge with
        step := j, moving := none, steps := s.gauge.steps + 1, standbyB := !s.gauge.standbyB } }.retarget
    | none => .next s

/-- STANDBY_PLL_LOCK_TIMEOUT (R376): the change is not made, CK_A stays at its step, and the PLL is tuned again. -/
def execStandbyPllLockTimeout (s : State) : Out :=
  if s.power.phase ≠ .run ∨ s.modes.parked then .next s
  else
    match s.changing with
    | some _ =>
      let s := s.countFault 0x71 (if s.gauge.standbyB then 1 else 0)
      .next { s with gauge := { s.gauge with moving := none } }
    | none => .next s

/-! ### The sentinel (R347, R348) -/

/-- The least `n` whose square is at least `x`, looking up to 511. -/
def ceilRoot (x : Nat) : Nat := ((List.range 511).find? (fun n => decide (x ≤ n * n))).getD 511

/-- E after an interval with least mean square `m` (mg squared), and the estimate in 2 mg units: twice the rms of E, rounded up.
Log 69, DEDUCED. -/
def Sentinel.update (c : Sentinel) (m : Nat) : Sentinel :=
  let e := c.e + ((m : Rat) - c.e) / 8
  { c with e := e, est := BitVec.ofNat 9 (ceilRoot e.ceil.toNat) }

/-- The tenants that a threshold above the highest floor counts against (Table GA-4). -/
def State.sentinelLosers (s : State) (c : CellId) : List Ctx :=
  allCtx.filter (fun t => s.granted t mSentinel && decide (s.sflOf t c ≠ 0))

/-- The update of one cell, with its conflicts. -/
def State.updateCell (s : State) (c : CellId) (m : Nat) : State :=
  let old := s.gauge.cells[c]
  let new := old.update m
  let top := s.sflMax c
  let s := { s with gauge := { s.gauge with cells := s.gauge.cells.set c new } }
  if old.est.toNat ≤ top ∧ top < new.est.toNat then
    (s.sentinelLosers c).foldl (fun s t =>
      ({ s with gauge := { s.gauge with confSent := satInc s.gauge.confSent } }).c1 0x4e 1 (t.val * 256 + c.val) none) s
  else s

/-- SENTINEL_ESTIMATE_UPDATE (R348): every 10 s of a parked period; `m` holds each cell's least mean square in mg squared. -/
def execSentinelEstimateUpdate (m : Vector Nat 4) (s : State) : Out :=
  if s.power.phase = .run ∧ s.modes.parked = true ∧ s.passed s.gauge.estAt (10 * sec) = true then
    let s := { s with gauge := { s.gauge with estAt := s.gauge.estAt + 10 * sec } }
    .next ((List.finRange 4).foldl (fun s c => s.updateCell c m[c]) s)
  else .next s

/-- A capture armed on the threshold begins in every armed context whose grant holds CAPTURE (R108, R115). -/
def State.beginArmed (s : State) : State :=
  (allCtx.filter (fun t => (s.ctx t).cap.arms && s.granted t mCapture && (s.ctx t).live)).foldl (fun s t =>
    ((s.startBurst t).modCtx t (fun c => { c with cap := { c.cap with arms := false } })).flag t 12) s

/-- SENTINEL_CROSSING (R107, R347): counted, the array wakes, armed captures begin, and WAKE names the cell. -/
def execSentinelCrossing (c : CellId) (s : State) : Out :=
  if s.power.phase = .run ∧ s.modes.parked = true then
    let x := s.gauge.cells[c]
    let s := { s with gauge := { s.gauge with
      cells := s.gauge.cells.set c { x with cross := satInc x.cross }, last := some (c, s.ringMs) } }
    .next ((s.wakeArray.beginArmed).retarget.signalAll (1#7 <<< evWake) [plainCause causeWake (BitVec.ofNat 4 (c.val + 1))])
  else .next s

/-! ### The range loop (R349) -/

/-- A selection of the range loop takes effect on the channel as R129 gives; the same selection again is none. -/
def State.selectRange (s : State) (ch : Chan) (wide : Bool) : State :=
  if (s.chan ch).loopSel = wide then s
  else
    let l := s.gauge.loops[ch]
    let s := { s with gauge := { s.gauge with loops := s.gauge.loops.set ch { l with sels := satInc l.sels } } }
    (s.modChan ch (fun c => { c with loopSel := wide })).settleChannel ch

/-- RANGE_LOOP_INTERVAL (R349): the peak of 10 ms in mg. While a PROOF window is open a selection waits for its end. -/
def execRangeLoopInterval (ch : Chan) (peakMg : Nat) (clip : Bool) (s : State) : Out :=
  if s.power.phase ≠ .run ∨ (s.chan ch).row ≠ 3 then .next s
  else
    let l := s.gauge.loops[ch]
    let quiet := if peakMg < 10000 then l.quiet + 1 else 0
    let sel : Option Bool := if clip ∨ 14000 < peakMg then some true else if 1000 ≤ quiet then some false else none
    let l := { l with peak := BitVec.ofNat 8 (Nat.min 255 (peakMg / 250)), quiet := quiet }
    let s := { s with gauge := { s.gauge with loops := s.gauge.loops.set ch l } }
    match sel with
    | none => .next s
    | some w =>
      if s.proofOpen then .next { s with gauge := { s.gauge with loops := s.gauge.loops.set ch { l with due := some w } } }
      else .next (s.selectRange ch w)

/-- Row 3 of Table CT-3 applies: the loop acts on the channel. -/
def State.looped (s : State) (ch : Chan) : Bool := decide ((s.chan ch).row = 3)

/-- The selections that waited for a PROOF window's end. -/
def State.dueRanges (s : State) : State :=
  allChans.foldl (fun s ch =>
    let l := s.gauge.loops[ch]
    match l.due with
    | none => s
    | some w =>
      let s := { s with gauge := { s.gauge with loops := s.gauge.loops.set ch { l with due := none } } }
      if s.looped ch then s.selectRange ch w else s) s

/-! ### The link amplitude loop (R350) -/

/-- LINK_AMPLITUDE_FALLBACK: a training restricted to 2.4 Vpp has not brought the port Up within 2 s. -/
def execLinkAmplitudeFallback (p : Port) (s : State) : Out :=
  let x := s.port p
  if x.state = .training ∧ x.only24 = true ∧ s.passed x.trainAt (2 * sec) = true then
    .next (s.modPort p (fun x => { x with only24 := false, freeAt := s.now + 600 * sec }))
  else .next s

end Sys2Proof.Machine
end

