-- ==== Sys2Proof/Machine/Catchment.lean ====
section
/-! DEFINITION. The Catchment's events (R124 to R133): lane frames, the retraining of a down lane, a change of range, and the axes of the
electrostatic self-test. -/

namespace Sys2Proof.Machine

/-! ### Lane frames (R125, R126) -/

/-- CRC-16/CCITT of a byte string. -/
def crc16 (b : List Byte) : Nat := b.foldl (fun c x => crcByte 16 0x1021 false c x.toNat) 0xffff

/-- A frame is good when its code is, its comma stands and its CRC holds. -/
def frameGood (codeOk : Bool) (b : List Byte) : Bool :=
  codeOk && decide (byteAt b 0 = 0xbc) && decide (crc16 (slice b 1 28) = fieldBE b 29 2)

/-- The 40 bits of the lane's channel `j`. -/
def frameBits (b : List Byte) (j : Nat) : BitVec 40 :=
  BitVec.ofNat 40 ((List.range 40).foldl (fun n p =>
    if (byteAt b (4 + p / 2)).getLsbD (4 * (p % 2) + j) then n + 2 ^ p else n) 0)

/-- The pattern of a bad frame: alternating, 0 first. -/
def badBits : BitVec 40 := 0xaaaaaaaaaa

/-- The lane's channels. -/
def laneChan (l : Lane) (j : Fin 4) : Chan := ⟨4 * l.val + j.val, by omega⟩

/-- The lane that carries a channel. -/
def chanLane (ch : Chan) : Lane := ⟨ch.val / 4, by omega⟩

/-- The cell that a channel belongs to: X, Y and Z of cell c are channels 3c to 3c + 2. -/
def chanCell (ch : Chan) : CellId := ⟨ch.val / 3, by omega⟩

/-- 40 samples of a channel from `si` reach the border and every inlet that takes the channel. The first after an SI change is the
stretched one: it carries SETTLE, and SIJUMP where the change falls within a plane (R123, R147; log 112, DEDUCED). -/
def State.feedChannel (s : State) (ch : Chan) (bits : BitVec 40) (si : BitVec 64) (jump clip settle lane : Bool) : State :=
  let left := (s.chan ch).settle
  let s := { s with mea := { s.mea with samples := s.mea.samples.set ch bits } }
  let s := s.modChan ch (fun c => { c with settle := c.settle - 40 })
  allStrips.foldl (fun s k =>
    if (s.strip k).inlet.en && decide ((s.strip k).inlet.src.toNat = ch.val) then
      (List.range 40).foldl (fun s i =>
        let first := jump && decide (i = 0)
        s.pushSample k (si + BitVec.ofNat 64 i) (bits.getLsbD i)
          { sijump := first && (s.strip k).inlet.within, clip := clip,
            settle := settle || first || decide (i < left ∧ left ≤ 400 + i), lane := lane }) s
    else s) s

/-- A clipped or bad frame, or a range change, spoils the axis under actuation in the channel's cell (R133). That any channel of the cell
does, and not the driven one alone, is the model's choice (log 143, DESIGN CHOICE). -/
def State.spoilAxis (s : State) (ch : Chan) : State :=
  match s.ct.axis with
  | some a => if chanCell a = chanCell ch then { s with ct := { s.ct with stInvalid := true } } else s
  | none => s

/-- A flag of the next finding of every tenant whose inlet takes the channel. -/
def State.flagChannel (s : State) (ch : Chan) (i : Nat) : State := s.flagAll (s.takesChannel ch.val) i

/-- Channel `j` of a good frame: clip, samples and range flags (R127). -/
def State.goodChannel (s : State) (l : Lane) (b : List Byte) (si : BitVec 64) (jump : Bool) (j : Fin 4) : State :=
  let ch := laneChan l j
  let clip := (byteAt b 24).getLsbD j.val
  let s := s.modChan ch (fun c => { c with clipNow := clip })
  let s :=
    if clip then ((s.modChan ch (fun c => { c with clip := c.clip + 1, clpix := si })).flagChannel ch 2).spoilAxis ch else s
  s.feedChannel ch (frameBits b j.val) si jump clip ((byteAt b 25).getLsbD j.val) false

/-- Channel `j` of a bad or down frame (R126). Its CLIP bit is not known: that CLIPNOW keeps the last good frame's is the model's choice
(log 141, DESIGN CHOICE). -/
def State.badChannel (s : State) (l : Lane) (si : BitVec 64) (jump : Bool) (j : Fin 4) : State :=
  let ch := laneChan l j
  ((s.flagChannel ch 4).spoilAxis ch).feedChannel ch badBits si jump false false true

/-- The slow word: cell temperatures 0 to 3, then the die's (Table CT-2). -/
def State.slowWord (s : State) (counter : Nat) (v : BitVec 16) : State :=
  if counter < 4 then
    (allChans.filter (fun ch => decide ((chanCell ch).val = counter))).foldl (fun s ch => s.modChan ch (fun c => { c with temp := v })) s
  else if counter = 4 then { s with ct := { s.ct with die := v } }
  else s

def State.modLane (s : State) (l : Lane) (f : LaneState → LaneState) : State :=
  { s with ct := { s.ct with lanes := s.ct.lanes.set l (f s.ct.lanes[l]) } }

/-- The border takes a frame whose first sample is `si`: at the first lane's of a frame period its edges count afresh (R124, R281). -/
def State.newFrame (s : State) (si : BitVec 64) : State :=
  if s.mea.frameSi = some si then s
  else { s with mea := { s.mea with
    frameAt := s.now, frameSi := some si, regions := s.mea.regions.map (fun (x : RegionSt) => { x with edges := 0 }) } }

/-- The sample index of a good frame: the lane's count, brought to the frame's own SI[15:0]. Log 111, DEDUCED. -/
def frameSi (si : BitVec 64) (b : List Byte) : BitVec 64 :=
  si + (BitVec.ofNat 16 (fieldBE b 2 2) - si.extractLsb' 0 16).zeroExtend 64

/-- The first sample index of the lane's next frame, given its count's `f`, and whether the frame is the first after an SI change
(R123). -/
def LaneState.frame (x : LaneState) (f : BitVec 64 → BitVec 64) : BitVec 64 × Bool :=
  match x.jump with
  | some (old, new) => if f x.si < old then (f x.si, false) else (f new, true)
  | none => (f x.si, false)

/-- The lane counts on from a frame. -/
def LaneState.next (x : LaneState) (r : BitVec 64 × Bool) : LaneState :=
  { x with si := r.1 + 40, jump := if r.2 then none else x.jump }

def State.goodFrame (s : State) (l : Lane) (b : List Byte) : State :=
  let r := s.ct.lanes[l].frame (fun x => frameSi x b)
  let s := s.modLane l (fun x => { x.next r with run := 0, counter := byteAt b 1 })
  let s := s.slowWord (byteAt b 1).toNat (BitVec.ofNat 16 (fieldBE b 27 2))
  (List.finRange 4).foldl (fun s j => s.goodChannel l b r.1 r.2 j) (s.newFrame r.1)

def State.badFrame (s : State) (l : Lane) : State :=
  let r := s.ct.lanes[l].frame id
  let s := s.modLane l (fun x => x.next r)
  (List.finRange 4).foldl (fun s j => s.badChannel l r.1 r.2 j) (s.newFrame r.1)

/-- A lane goes down: a C3 fault, and DEGRADE to the owners of inlets that take one of its channels (Table FL-2). -/
def State.laneDown (s : State) (l : Lane) : State :=
  let s := s.modLane l (fun x => { x with up := false, lastTry := s.now })
  let s := s.takeFault 0x52 (BitVec.ofNat 8 l.val) 0 none none
  s.degradeWhere (fun t => (List.finRange 4).any (fun j => s.takesChannel (laneChan l j).val t)) 5 l.val

/-- LANE_FRAME (R125, R126): 16 bad frames in a row take the lane down, and a down lane delivers the pattern. -/
def execLaneFrame (l : Lane) (codeOk : Bool) (bytes : Vector Byte 31) (s : State) : Out :=
  let b := bytes.toList
  if s.power.phase ≠ .run then .next s
  else if s.ct.lanes[l].up = false then .next (s.badFrame l)
  else if frameGood codeOk b then .next (s.goodFrame l b)
  else
    let s := (s.modLane l (fun x => { x with bad := satInc x.bad, run := x.run + 1 })).countFault 0x44 l.val
    let s := s.badFrame l
    .next (if 16 ≤ s.ct.lanes[l].run then s.laneDown l else s)

/-- LANE_RETRAIN (R126): every 10 ms while the lane is down. Its return shows in CTLANE and CTSTAT. Log 110, DEDUCED. -/
def execLaneRetrain (l : Lane) (ok : Bool) (s : State) : Out :=
  let x := s.ct.lanes[l]
  if s.power.phase = .run ∧ x.up = false ∧ s.passed x.lastTry (10 * ms) = true then
    .next (s.modLane l (fun x =>
      { x with retrains := satInc x.retrains, lastTry := s.now, up := ok, run := if ok then 0 else x.run }))
  else .next s

/-- The sample that began at the last frame boundary of the Catchment (R129). -/
def State.boundarySi (s : State) : BitVec 64 := s.time.si - BitVec.ofNat 64 s.time.edge

/-- The channel takes its new range at the frame boundary: 400 samples settle, which reach the border behind those under way (R124,
R129). -/
def State.changeRange (s : State) (ch : Chan) : State :=
  let at_ := s.boundarySi
  let under := Nat.min 240 (at_ - s.ct.lanes[chanLane ch].si).toNat
  (s.modChan ch (fun c => { c with rng := c.wanted, pend := false, prng := false, settle := 400 + under, rchg := at_ })).spoilAxis ch

/-- RANGE_CHANGE (R129): at a frame boundary, unless a burst defers it. -/
def execRangeChange (ch : Chan) (s : State) : Out :=
  let c := s.chan ch
  if s.power.phase ≠ .run then .next s
  else if s.bursting then .next (s.settleChannel ch)
  else if c.wanted = c.rng then .next (s.modChan ch (fun c => { c with pend := false, prng := false }))
  else .next (s.changeRange ch)

/-! ### The electrostatic self-test (R110, R133) -/

/-- The length of one axis's third: a scheduled window gives each cell 300 ms, a requested one 100 ms. -/
def axisNs (scheduled : Bool) : Nat := (if scheduled then 300 else 100) * ms / 3

/-- STEXP of the range in force. -/
def State.stexp (s : State) (ch : Chan) : Nat :=
  (if (s.chan ch).rng then s.ct.coeffs[ch].stexp64 else s.ct.coeffs[ch].stexp16).toNat

/-- The driven response from 0.90 to 1.10 of STEXP, and every other below 3 % of it (R133). -/
def axisPass (m : AxisMeas) (stexp : Nat) : Bool :=
  decide (90 * stexp ≤ 100 * m.response) && decide (100 * m.response ≤ 110 * stexp) && decide (100 * m.cross < 3 * m.response)

/-- A ratio of CTSTRES in parts of 1/`n`, held at the field's largest; over zero it is free (Table CT-4; log 109, DESIGN CHOICE). -/
def stRatio (n x y free : Nat) : BitVec 10 := BitVec.ofNat 10 (if y = 0 then free else Nat.min 1023 (n * x / y))

/-- CTSTRES after an evaluation (Table CT-4). -/
def stResult (old : BitVec 34) (m : AxisMeas) (stexp free : Nat) (bad : Bool) : BitVec 34 :=
  let runs : BitVec 12 := old.extractLsb' 22 12 + 1
  runs ++ bit bad ++ bit (!bad && axisPass m stexp) ++ stRatio 1024 m.cross m.response (Config.freeNat free 8)
    ++ stRatio 512 m.response stexp (Config.freeNat free 9)

/-- The evaluation of the axis under actuation: an invalid result is reported as such. -/
def State.evaluateAxis (s : State) (m : AxisMeas) : State :=
  match s.ct.axis with
  | none => s
  | some a =>
    let bad := m.invalid || s.ct.stInvalid
    let (n, s) := s.takeFree
    let s := s.modChan a (fun c => { c with stres := stResult c.stres m (s.stexp a) n bad })
    { s with ct := { s.ct with axis := none, stInvalid := false } }

/-- The channels of the driven cell show STACT. -/
def State.showActuation (s : State) (cell : Option CellId) : State :=
  allChans.foldl (fun s ch => s.modChan ch (fun c => { c with stact := decide (cell = some (chanCell ch)) })) s

/-- Drive axis `ch`. -/
def State.driveAxis (s : State) (ch : Chan) : State :=
  let s := (s.modChan ch (fun c => { c with stix := s.time.si })).showActuation (some (chanCell ch))
  { s with ct := { s.ct with axis := some ch, stInvalid := false, axisAt := s.now } }

/-- The phase sequence of the drive, by the number of 12.5 ms since the third began: the register before that step (R133). -/
def driveReg : Nat → BitVec 7
  | 0 => 0x7f
  | n + 1 =>
    let r := driveReg n
    r.extractLsb' 0 6 ++ bit (r.getLsbD 6 ^^ r.getLsbD 5)

/-- Reversed phase in the 12.5 ms of number `n`. -/
def driveReversed (n : Nat) : Bool := (driveReg n).getLsbD 6 ^^ (driveReg n).getLsbD 5

/-- The drive `ns` into a third pushes toward the positive axis: the first 3.125 ms of each 6.25 ms, or the second when reversed. -/
def drivePositive (ns : Nat) : Bool := decide (ns % 6250000 < 3125000) ^^ driveReversed (ns / 12500000)

/-- The electrostatic drive: the driven axis and its acceleration in g, 25 % of the full scale of the range in force (R133). -/
def State.drive (s : State) : Option (Chan × Int) :=
  match s.ct.axis with
  | some ch =>
    let g : Int := if (s.chan ch).rng then 16 else 4
    some (ch, if drivePositive (s.now - s.ct.axisAt) then g else -g)
  | none => none

/-- Whether axis `ch` begins next: the first axis with no other under actuation, a later one after its predecessor, at its third
of its cell's turn. -/
def State.axisDue (s : State) (ch : Chan) : Bool :=
  match s.modes.window with
  | some w =>
    s.proofOpen && s.passed (w.openAt + ch.val * axisNs w.scheduled) 0
    && (match s.ct.axis with
        | none => decide (ch.val = 0)
        | some a => decide (a.val + 1 = ch.val))
  | none => false

/-- SELF_TEST_AXIS (R133): the previous axis is evaluated and the next one driven. Log 109, DESIGN CHOICE. -/
def execSelfTestAxis (ch : Chan) (prev : Option AxisMeas) (s : State) : Out :=
  if s.axisDue ch then
    match s.ct.axis, prev with
    | none, _ => .next (s.driveAxis ch)
    | some _, some m => .next ((s.evaluateAxis m).driveAxis ch)
    | some _, none => .next s
  else .next s

end Sys2Proof.Machine
end

