-- ==== Sys2Proof/Machine/Keeper.lean ====
section
/-! DEFINITION. The keeper's silence and return (R100, R112, R113, R116, Table MD-2), and the replay of the finding ledger
(R113, R323, R326). -/

namespace Sys2Proof.Machine

/-- HOLD is in ACT and the keeper is unreachable: findings go to the ledger (R112), those that wait behind a replay first (R113).
Without HOLD permitted they are sent whatever the keeper's state. -/
def State.setDivert (s : State) : State :=
  let on := s.inAct mHold && s.modes.keeperLost
  let s := { s with modes := { s.modes with divert := on } }
  if on then s.divertBehind else s.releaseBehind

/-- A frame from the keeper (Table MD-2). After an absence KEEPER-LOST tells of the return, diversion ends, the replay
begins, and HOLD ends with an empty ledger. A ledger of earlier runs is replayed from the first frame heard after RUN
(log 75, DEDUCED). Log 106, DEDUCED. -/
def State.keeperHeard (s : State) : State :=
  let was := s.modes.keeperLost
  let more := !s.ks.ledger.isEmpty && (was || s.ks.replayWait) && s.speaks
  let s := { s with
    mill := { s.mill with keeperAt := s.now },
    ks := { s.ks with replayWait := s.ks.replayWait && !more },
    modes := { s.modes with keeperLost := false, divert := false, replay := s.modes.replay || more } }
  if was then
    if s.ks.ledger.isEmpty && s.modes.hw.getLsbD mHold then s.hwMode mHold false 0 [plainCause causeKeeper 2]
    else s.signalAll 0 [plainCause causeKeeper 2]
  else s

/-- KEEPER_SILENCE (R100): 30 s without a frame from the keeper, counted from the first house verdict. A replay pauses. -/
def execKeeperSilence (s : State) : Out :=
  match s.find.verdictAt with
  | none => .next s
  | some v =>
    if s.speaks = true ∧ s.modes.keeperLost = false ∧ s.passed (Nat.max v s.mill.keeperAt) (30 * sec) = true then
      let s := { s with
        ks := { s.ks with replayWait := !s.ks.ledger.isEmpty },
        modes := { s.modes with keeperLost := true, replay := false } }
      .next (s.hwMode mHold true 0 [plainCause causeKeeper 1]).setDivert
    else .next s

/-- The replay field (R323): LEDGER-FULL and LEDSKIP, in the first frame after the ledger was full. -/
def State.replayField (s : State) : List Byte :=
  if s.ks.wasFull && !s.ks.fullTold then [0x80, 0, 0, 0] ++ bytesBE s.ks.skipped 4 else List.replicate 8 0

/-- The TIMEAUX entry that an F0h finding carries once a TIME-AUX has come (R331). -/
def State.auxEntry (s : State) : List Byte :=
  match s.mill.trace with
  | some b => sysEntry 0x0008 b
  | none => []

/-- The F0h finding that follows a replay (Table MR-8, Table FL-5). -/
def State.ledgerReport (s : State) : State :=
  let body := sysEntry 0x0007 ((if s.ks.wasFull then (1 : Byte) else 0) :: bytesBE s.ks.skipped 4) ++ s.auxEntry
  let s := { s with ks := { s.ks with wasFull := false, fullTold := false } }
  s.formSystem 0xf0 body

/-- The replay has sent the last finding: HOLD ends, if it still stands, and the ledger's state is reported. -/
def State.endReplay (s : State) : State :=
  let s := { s with modes := { s.modes with replay := false } }
  let s := if s.modes.hw.getLsbD mHold then s.hwMode mHold false 0 [] else s
  s.ledgerReport

/-- The oldest entry leaves the ledger; its sector is erased once it holds replayed findings only (R62). -/
def State.popLedger (s : State) (rest : List Finding) : State :=
  let s := { s with ks := ({ s.ks with ledger := rest }).planErase .findingLedger }
  if rest.isEmpty then (s.endReplay).releaseBehind else s.releaseBehind

/-- LEDGER_REPLAY (R113): the oldest finding goes out with REPLAYED set, at most 200 a second, and its tenant's live findings after its
last. A record that is absent sends nothing (R60). -/
def execLedgerReplay (s : State) : Out :=
  match s.ks.ledger with
  | [] => .next s
  | f :: rest =>
    if s.speaks = true ∧ s.modes.replay = true ∧ s.modes.keeperLost = false ∧ s.passed s.modes.replayAt (5 * ms) = true then
      if f.absent then .next (s.popLedger rest)
      else
        let s1 := s.sendMillrace keeperGroup 0x02 0x01 (s.replayField ++ f.body)
        let s2 := { s1 with
          ks := { s1.ks with fullTold := s1.ks.wasFull }, modes := { s1.modes with replayAt := s1.now } }
        .next (s2.popLedger rest)
    else .next s

end Sys2Proof.Machine
end

