-- ==== Sys2Proof/Machine/Verify.lean ====
section
/-! DEFINITION. What the Lock verifies at a start (R55 to R58, R61, R70, R84 to R86, Table SS-3), as a function of its
counters and the staging slots: the groups it reports (VERIFY of Table FL-5) and what it applies. -/

namespace Sys2Proof.Machine

/-! ### Slots (R56, R60, R61) -/

/-- A slot that is a candidate: its closing page reads valid (R56). -/
structure Cand where
  slotB    : Bool
  seq      : BitVec 32
  readable : Bool
  bundle   : List Byte
  deriving DecidableEq, Repr

/-- The content pages pass the check of R61. -/
def Slot.readable (x : Slot) : Bool :=
  match x.closing.counted with
  | some c => x.contentOk && decide (c.2 = sha256 x.bundle)
  | none => false

def Slot.cand (x : Slot) (slotB : Bool) : Option Cand :=
  match x.closing.counted with
  | some c => some { slotB := slotB, seq := c.1, readable := x.readable, bundle := x.bundle }
  | none => none

/-- Whether candidate `y` is tried before `x`: readable ones first, then the higher epoch or version, then the slot staged
more recently (R56, R84). -/
def Cand.after (rank : List Byte → Nat) (x y : Cand) : Bool :=
  if x.readable != y.readable then y.readable
  else if x.readable && decide (rank x.bundle ≠ rank y.bundle) then decide (rank x.bundle < rank y.bundle)
  else decide (x.seq < y.seq)

/-- The candidates of a pair in the order of trial. -/
def SlotPair.cands (p : SlotPair) (rank : List Byte → Nat) : List Cand :=
  match p.a.cand false, p.b.cand true with
  | some x, some y => if x.after rank y then [y, x] else [x, y]
  | some x, none => [x]
  | none, some y => [y]
  | none, none => []

/-! ### Trials -/

/-- A group of the VERIFY entry (Table FL-5). -/
structure VGroup where
  step    : Nat
  slot    : Nat      -- 0 A, 1 B, FFh the step as a whole
  kind    : Nat
  tenant  : Nat
  code    : Nat
  outcome : Nat
  deriving DecidableEq, Repr

def VGroup.bytes (g : VGroup) : List Byte :=
  [BitVec.ofNat 8 g.step, BitVec.ofNat 8 g.slot, BitVec.ofNat 8 g.kind, BitVec.ofNat 8 g.tenant, BitVec.ofNat 8 g.code,
   BitVec.ofNat 8 g.outcome]

/-- Outcomes of the VERIFY entry. -/
def voFuse : Nat := 1
def voPatchNone : Nat := 2
def voCharterLost : Nat := 3
def voHouse : Nat := 4
def voIdle : Nat := 5
def voRestartLoop : Nat := 6
def voSlot : Nat := 7

/-- Try candidates in order until one passes: a group for each slot tried, and the one that passed. -/
def tryCands (step kind tenant : Nat) (test : Cand → Option Nat) : List Cand → List VGroup × Option Cand
  | [] => ([], none)
  | c :: cs =>
    let g (code : Nat) (o : Nat) : VGroup :=
      { step := step, slot := if c.slotB then 1 else 0, kind := kind, tenant := tenant, code := code, outcome := o }
    match test c with
    | none => ([g 0 0], some c)
    | some code =>
      let r := tryCands step kind tenant test cs
      (g code voSlot :: r.1, r.2)

/-- The outcome of a step as a whole. -/
def wholeStep (step kind tenant outcome : Nat) : VGroup :=
  { step := step, slot := 0xff, kind := kind, tenant := tenant, code := 0, outcome := outcome }

/-- An ENROL whose sequence names a written bank fails with SEQUENCE, whoever signed it (R85). -/
def bankNamed (l : Lock) (c : Cand) : Bool := decide (bdKind c.bundle = some .enrol) && decide (bdEpoch c.bundle ≤ l.banks.length)

/-- The checks of a start up to the epoch: a slot that cannot be read fails with FORMAT (R61). -/
def startTests (enrol : Option Enrolment) (recipeKey : BitVec 256) (named : Bool) (c : Cand) : List (Bool × Nat) :=
  (c.readable, rfFormat) :: arrivalTests c.bundle ++ [(!named, rfSequence), (hashesOk enrol recipeKey c.bundle, rfKeyhash)]

/-- Those checks, the epoch's and the content's (R80). -/
def startCode (enrol : Option Enrolment) (recipeKey : BitVec 256) (named : Bool) (epoch : List (Bool × Nat))
    (content : List Byte → List (Bool × Nat)) (c : Cand) : Option Nat :=
  match firstFail (startTests enrol recipeKey named c ++ epoch) with
  | some code => some code
  | none =>
    match openContent c.bundle with
    | none => some rfDecrypt
    | some x => firstFail (content x)

/-! ### The steps -/

/-- The enrolment in force: the highest written bank (R74). -/
def Lock.inForce (l : Lock) : Option Enrolment := l.banks.getLast?

/-- What verification gives. -/
structure Verified where
  groups  : List VGroup
  enrol   : Option Enrolment          -- to be fused at commit
  enrolB  : Bool                      -- from slot B
  patch   : Option Cand
  patchNone : Bool
  charter : Option Cand
  charterLost : Bool
  recipes : Vector (Option Cand) 16
  deriving DecidableEq, Repr

/-- Step 2. Log 52, DEDUCED. -/
def verifyEnrol (l : Lock) (ks : Keepsake) : List VGroup × Option Cand :=
  let cs := (ks.enrol.cands bdEpoch).filter (fun c => !(c.readable && enrolDone l.banks c.bundle))
  let test (c : Cand) : Option Nat :=
    startCode l.inForce 0 (bankNamed l c) [(decide (bdEpoch c.bundle = l.banks.length + 1), rfSequence)]
      (fun x => [(enrolContentOk x, rfContent)]) c
  let r := tryCands 2 1 0xff test cs
  (r.1 ++ [wholeStep 2 1 0xff (if cs.isEmpty || r.2.isSome then 0 else voSlot)], r.2)

/-- Step 3: the candidate, and PATCH-NONE. -/
def verifyPatch (l : Lock) (ks : Keepsake) : List VGroup × Option Cand × Bool :=
  let cs := ks.patch.cands bdEpoch
  let test (c : Cand) : Option Nat :=
    startCode l.inForce 0 false [(decide (l.patchCtr.toNat ≤ bdEpoch c.bundle), rfEpoch)]
      (fun x => [(patchContentOk x, rfContent)]) c
  let r := tryCands 3 2 0xff test cs
  let none' := r.2.isNone && (!cs.isEmpty || decide (l.patchCtr ≠ 0))
  (r.1 ++ [wholeStep 3 2 0xff (if none' then voPatchNone else 0)], r.2, none')

/-- Step 4, against the enrolment that will be in force after the commit (R86): the candidate, and CHARTER-LOST (R57). -/
def verifyCharter (l : Lock) (enrol : Option Enrolment) (ks : Keepsake) : List VGroup × Option Cand × Bool :=
  let cs := ks.charter.cands bdEpoch
  let test (c : Cand) : Option Nat :=
    startCode enrol 0 false [(decide (l.charterCtr.toNat ≤ bdEpoch c.bundle), rfEpoch)] charterTests c
  let r := tryCands 4 3 0xff test cs
  let lost := r.2.isNone && decide (l.charterCtr ≠ 0)
  (r.1 ++ [wholeStep 4 3 0xff (if r.2.isSome then 0 else if lost then voCharterLost else voHouse)], r.2, lost)

/-- Step 5 for one tenant. -/
def verifyRecipe (ks : Keepsake) (t : Ctx) (rec_ : TenantRecord) : List VGroup × Option Cand :=
  if rec_.recipeKey = 0 then ([wholeStep 5 4 t.val voIdle], none)
  else
    let test (c : Cand) : Option Nat :=
      startCode none rec_.recipeKey false [(decide (rec_.minVersion.toNat ≤ bdVersion c.bundle), rfVersion)]
        (fun x => [(recipeContentOk t.val rec_ x, rfContent)]) c
    let r := tryCands 5 4 t.val test (ks.recipe[t].cands bdVersion)
    (r.1 ++ [wholeStep 5 4 t.val (if r.2.isSome then 0 else voIdle)], r.2)

/-- The charter of a candidate that passed. -/
def Cand.charter (c : Cand) : Option Charter := (openContent c.bundle).map charterOf

/-- The tenants of a charter that a recipe may serve, each with its outcome; without a charter the step as a whole stands alone: set
aside by a RESTART-LOOP, or with nothing to verify in house mode (R55, R70; log 52, DEDUCED). -/
def verifyRecipes (ks : Keepsake) (loop : Bool) (ch : Option Charter) : List VGroup × Vector (Option Cand) 16 :=
  match ch with
  | none => ([wholeStep 5 4 0xff (if loop then voRestartLoop else 0)], Vector.replicate 16 none)
  | some ch =>
    let r (t : Ctx) : List VGroup × Option Cand :=
      match ch.tenants[t] with
      | some x => verifyRecipe ks t x
      | none => ([], none)
    (allCtx.flatMap (fun t => (r t).1), Vector.ofFn (fun t => (r t).2))

/-- Steps 1 to 6; with `loop` the charter and recipes are set aside (R70). -/
def verify (l : Lock) (ks : Keepsake) (loop : Bool) : Verified :=
  let e := verifyEnrol l ks
  let p := verifyPatch l ks
  let enrol := e.2.map (fun c => enrolOf (bdContent c.bundle))
  let after := match enrol with
    | some x => some x
    | none => l.inForce
  let c := if loop then ([wholeStep 4 3 0xff voRestartLoop], none, false) else verifyCharter l after ks
  let rs := verifyRecipes ks loop (c.2.1.bind Cand.charter)
  { groups := wholeStep 1 0xff 0xff 0 :: e.1 ++ p.1 ++ c.1 ++ rs.1 ++ [wholeStep 6 0xff 0xff 0, wholeStep 7 0xff 0xff 0],
    enrol := enrol, enrolB := e.2.elim false (·.slotB), patch := p.2.1, patchNone := p.2.2, charter := c.2.1, charterLost := c.2.2, recipes := rs.2 }

/-! ### Keys (R94, R95) -/

/-- The salt of R94 and R95. -/
def keySalt (nonce : BitVec 64) : List Byte := bytesBE nonce.toNat 8 ++ bytesBE Config.deviceSerial.toNat 8

def sessionKey (root : List Byte) (nonce : BitVec 64) (t : Ctx) : BitVec 128 :=
  hkdf16 root (keySalt nonce) (ascii "Farwister finding" ++ [BitVec.ofNat 8 t.val])

/-- The session keys of a run. -/
def sessionKeys (ch : Option Charter) (nonce : BitVec 64) : Vector (BitVec 128) 16 :=
  match ch with
  | none => (Vector.replicate 16 0).set 0 (sessionKey (bytesBE Config.houseSeed.toNat 32) nonce 0)
  | some ch => Vector.ofFn (fun t =>
      match ch.tenants[t] with
      | some x => sessionKey (bytesBE x.rootKey.toNat 16) nonce t
      | none => 0)

end Sys2Proof.Machine
end

