-- ==== Sys2Proof/Machine/Census.lean ====
section
/-! DEFINITION. The census (R314, R318, R319, R95). -/

namespace Sys2Proof.Machine

/-- A query that R318 discards: tag 0000h, or a key that is neither zero nor a point. -/
def badQuery (b : List Byte) : Bool :=
  decide (fieldBE b 2 2 = 0) || !(zeros b 6 65 || validPoint (slice b 6 65))

/-- CENSUS: a query accepted replaces an earlier one whose answer waits (Edges of 18). Before the first house verdict and during
a stop it is ignored. Log 104, DEDUCED. -/
def State.onCensus (s : State) (m : Message) : State :=
  let b := m.body
  let s := s.keeperHeard
  if badQuery b then { s with mill := { s.mill with bad := satInc s.mill.bad } }
  else if s.speaks then
    let q : CensusDue :=
      { number := BitVec.ofNat 16 (fieldBE b 4 2), tag := BitVec.ofNat 16 (fieldBE b 2 2), cert := decide (byteAt b 1 = 1),
        key := slice b 6 65, table := slice b 71 128, due := s.now + Config.deviceSerial.toNat % 256 * ms }
    { s with mill := { s.mill with census := some q } }
  else s

def execCensus (m : Message) (s : State) : Out := .next (s.take m 0x07 (fun s => s.onCensus m))

/-! ### Neighbours -/

/-- The port-A and port-B neighbour sockets of socket `b` in a neighbour table. -/
def neighbours (table : List Byte) (b : BitVec 6) : Option (BitVec 6) × Option (BitVec 6) :=
  let at_ (i : Nat) : Option (BitVec 6) :=
    let x := table.getD i 0xff
    if x.toNat < 64 then some (x.extractLsb' 0 6) else none
  (at_ (2 * b.toNat), at_ (2 * b.toNat + 1))

/-- The ring map's neighbour marks (Table MR-10). -/
def State.markNeighbours (s : State) (n : Option (BitVec 6) × Option (BitVec 6)) : State :=
  { s with mill := { s.mill with map := s.mill.map.mapFinIdx (fun i (m : RingMap) _ =>
      { m with nbrA := decide (n.1 = some (BitVec.ofNat 6 i)), nbrB := decide (n.2 = some (BitVec.ofNat 6 i)) }) } }

/-- Buddies under z[1:0] = 11b: the neighbours named. A relation that ends takes its loss with it; a new neighbour is present
at its first PULSE (R314, Edges of 18). -/
def State.ringBuddies (s : State) (n : Option (BitVec 6) × Option (BitVec 6)) : State :=
  let l := (n.1.toList ++ n.2.toList).dedup
  let gone (i : Nat) : Bool := !l.contains (BitVec.ofNat 6 i)
  ({ s with mill := { s.mill with
      buddies := l,
      map := s.mill.map.mapFinIdx (fun i (m : RingMap) _ => if gone i then { m with lost := false, present := false } else m) } }).settleVigil

/-- What acceptance brings besides the tag. -/
def State.acceptCensus (s : State) (c : CensusDue) : State :=
  let s := { s with ring := { s.ring with tag := c.tag } }
  match s.code.latched.s with
  | some b =>
    if s.bySerial then s
    else
      let n := neighbours c.table b
      let s := s.markNeighbours n
      if s.code.latched.z.extractLsb' 0 2 = 3 then s.ringBuddies n else s
  | none => s

/-! ### The answer -/

/-- The house key wrap (R95): ciphertext and tag; zero outside house mode and for a zero key. -/
def State.houseWrap (s : State) (key : List Byte) : List Byte :=
  if s.lock.house && !zeros key 0 65 then
    match deviceEcdh key with
    | some z =>
      let kek := hkdf16 z (keySalt s.lock.nonce) (ascii "Farwister house wrap")
      let aad := bytesBE Config.deviceSerial.toNat 8 ++ bytesBE s.lock.nonce.toNat 8
      let r := gcmSeal kek (List.replicate 12 0) aad (bytesBE s.lock.keys[(0 : Ctx)].toNat 16)
      r.1 ++ r.2
    | none => List.replicate 32 0
  else List.replicate 32 0

/-- The census answer (Table MR-4). -/
def State.censusBody (s : State) (c : CensusDue) : List Byte :=
  let f (i : Nat) (b : Bool) : Nat := if b then 2 ^ i else 0
  let latched := s.code.latched
  let cert := if c.cert then Config.certificate else []
  [0x02, BitVec.ofNat 8 (f 0 c.cert + f 1 s.lock.house + f 2 (s.mill.relocated && !s.mill.answered) + f 3 s.bySerial
      + f 4 latched.fault.isSome)]
    ++ bytesBE c.number.toNat 2 ++ bytesBE s.lock.nonce.toNat 8
    ++ [s.socketByte, latched.p.zeroExtend 8, latched.z.zeroExtend 8, s.mill.recorded.elim 0xff (·.zeroExtend 8),
        s.power.retained.cause.code, BitVec.ofNat 8 s.power.retained.count, s.lock.charterEpoch.zeroExtend 8,
        s.lock.patchEpoch.zeroExtend 8]
    ++ (s.lock.versions.toList.flatMap (fun v => bytesBE v.toNat 2)) ++ s.houseWrap c.key ++ bytesBE cert.length 2 ++ cert

/-- CENSUS_ANSWER (R318, R319): after serial[7:0] ms the query is accepted and the answer leaves with the new tag. -/
def execCensusAnswer (s : State) : Out :=
  match s.mill.census with
  | none => .next s
  | some c =>
    if s.speaks = true ∧ s.passed c.due 0 = true then
      let s := s.acceptCensus c
      let s := s.sendMillrace keeperGroup 0x07 0 (s.censusBody c)
      .next { s with mill := { s.mill with census := none, answered := true } }
    else .next s

end Sys2Proof.Machine
end

