-- ==== Sys2Proof/Machine/Pages.lean ====
section
/-! DEFINITION. Writing Keepsake (R62, R64, R360): background erase, the pages of the fault ledger, and the stop record. -/

namespace Sys2Proof.Machine

/-- SECTOR_ERASE_COMPLETE (R62): the sector is erased, and its region goes on while an erase is due. -/
def execSectorEraseComplete (r : KsRegion) (s : State) : Out :=
  if s.ks.eraseSector.contains r ∧ s.power.phase = .run then .next { s with ks := s.ks.sectorErased r } else .next s

/-- Write one page of up to 15 waiting fault entries (R360). -/
def State.writeFaultPage (s : State) : State :=
  match s.faults.waiting with
  | [] => s
  | e :: es =>
    let page := (e :: es).take 15
    let s := s.usePairs .faultLedger 1
    { s with
      ks := { s.ks with faultPages := s.ks.faultPages ++ [page], persisted := ((page.getLast?).map (·.number)).getD s.ks.persisted },
      faults := { s.faults with waiting := (e :: es).drop 15 } }

/-- Write every waiting entry: at most five pages for the 64 that can wait (R64). -/
def State.writeAllFaults (s : State) : State := s.writeFaultPage.writeFaultPage.writeFaultPage.writeFaultPage.writeFaultPage

/-- FAULT_LEDGER_PAGE_WRITE (R360): 15 entries wait, or the oldest is 10 s old. -/
def execFaultLedgerPageWrite (s : State) : Out :=
  match s.faults.waiting with
  | [] => .next s
  | e :: _ =>
    if s.power.phase = .run ∧ (15 ≤ s.faults.waiting.length ∨ s.passed e.at_ (10 * sec) = true) then .next s.writeFaultPage
    else .next s

/-- The stop record (R64, R92, Edges of 04). -/
def State.writeStopRecord (s : State) : State :=
  let r : StopRecord := { cause := s.power.stopCause, reason := s.power.stopReason, c4 := s.power.c4InStop }
  let s := s.usePairs .records 1
  { s with ks := { s.ks with stop := s.ks.stop.write 6 r } }

/-- COUNTED_INTERVAL (R375): every 10 s from RUN. -/
def execCountedInterval (s : State) : Out :=
  if s.power.phase = .run ∧ s.passed s.faults.interval (10 * sec) = true then
    let s := s.recordCounted
    .next { s with faults := { s.faults with interval := s.faults.interval + 10 * sec } }
  else .next s

/-- A preempted fault resumes, or the next queued one is taken up (R358). -/
def resumeTop : List FaultInHand → List FaultInHand
  | [] => []
  | f :: fs => { f with preempted := false } :: fs

/-- The flush of the fault's halt or remap is still under way (R243). -/
def State.flushPending (s : State) (f : FaultInHand) : Bool :=
  if f.cls = 2 then s.net.flushing.any (fun x => x.getLsbD f.ctx.val)
  else decide (f.cls = 3) && s.net.flushing.any (fun x => decide (x ≠ 0))

/-- FAULT_HANDLING_COMPLETE (R358): the fault in hand leaves the stack, once its flush is complete (R243). -/
def execFaultHandlingComplete (s : State) : Out :=
  if s.power.phase = .run ∧ (s.faults.stack.head?.any (fun f => s.flushPending f)) = false then
    .next { s with faults := { s.faults with stack := resumeTop (s.faults.stack.drop 1) } }
  else .next s

end Sys2Proof.Machine
end

