-- ==== Sys2Proof/Machine/Delivery.lean ====
section
/-! DEFINITION. Bundle delivery: reassembly (R327), the arrival checks (R81, R92), refusal (R82), staging (R61, R84, R328) and
RESTART (R71, R329). -/

namespace Sys2Proof.Machine

/-! ### Refusal and acknowledgement -/

/-- A bundle refused at arrival (R82): REFUSE in the fault ledger, LKRFCODE and LKRFDIG, and an F4h finding; in a stop, which forms no
finding, the refusal is kept for T0's findings of the next run (R71). -/
def State.refuse (s : State) (b : List Byte) (code : Nat) : State :=
  let kind := byteAt b 5
  let tenant := bdTenant b
  let dig : BitVec 64 := (bdDigest b).extractLsb' 192 64
  let x : Refusal' := { code := BitVec.ofNat 8 code, kind := kind, tenant := tenant, digest := dig }
  let s := { s with lock := { s.lock with refused := some x } }
  let s := s.c1 0x4b kind (code * 256 + tenant.toNat) none
  if s.power.phase = .stopping then { s with lock := { s.lock with inStop := s.lock.inStop ++ [x] } } else s.formSystem 0xf4 x.entry

/-- BUNDLE-ACK (R328). -/
def State.sendAck (s : State) (x : Staging) (status : Byte) : State :=
  let b := x.bundle
  let body := bytesBE x.transfer.toNat 2 ++ [status, BitVec.ofNat 8 x.kind.code, bdTenant b, byteAt b 7]
    ++ bytesBE (bdVersion b) 2 ++ bytesBE (bdDigest b).toNat 32
  s.sendMillrace x.source 0x04 0 body

/-! ### Slots (R84) -/

def Keepsake.pair (ks : Keepsake) (k : Kind) (t : Ctx) : SlotPair :=
  match k with
  | .enrol => ks.enrol
  | .patch => ks.patch
  | .charter => ks.charter
  | .recipe => ks.recipe[t]
  | .restart => .empty

def Keepsake.setPair (ks : Keepsake) (k : Kind) (t : Ctx) (p : SlotPair) : Keepsake :=
  match k with
  | .enrol => { ks with enrol := p }
  | .patch => { ks with patch := p }
  | .charter => { ks with charter := p }
  | .recipe => { ks with recipe := ks.recipe.set t p }
  | .restart => ks

def SlotPair.get (p : SlotPair) (slotB : Bool) : Slot := if slotB then p.b else p.a
def SlotPair.put (p : SlotPair) (slotB : Bool) (x : Slot) : SlotPair := if slotB then { p with b := x } else { p with a := x }

/-- A valid closing page stands. -/
def Slot.isClosed (x : Slot) : Bool := x.closing.counted.isSome

/-- The number by which rule 4 compares. -/
def Kind.rank (k : Kind) (b : List Byte) : Nat := if k = .recipe then bdVersion b else bdEpoch b

/-- Whether a slot is the one in force (R84, rule 2): the bundle that the current run applied. -/
def State.slotInForce (s : State) (k : Kind) (t : Ctx) (slotB : Bool) : Bool :=
  let l := s.lock
  match k with
  | .charter => l.charter.isSome && decide (l.charterB = slotB)
  | .patch => l.patchOn && decide (l.patchB = slotB)
  | .recipe => l.recipeIn.getLsbD t && decide (l.recipeB.getLsbD t = slotB)
  | .enrol => l.enrolFused && decide (l.enrolB = slotB)
  | .restart => false

/-- The slot that an accepted bundle takes, by rules 2 to 4: true for B. -/
def State.chooseSlot (s : State) (k : Kind) (t : Ctx) : Bool :=
  let p := s.ks.pair k t
  if s.slotInForce k t false then true
  else if s.slotInForce k t true then false
  else if !p.a.isClosed then false
  else if !p.b.isClosed then true
  else if !p.a.readable then false
  else if !p.b.readable then true
  else decide (k.rank p.b.bundle ≤ k.rank p.a.bundle)

/-- Rule 1: a slot of the pair holds a bundle with the same digest. -/
def State.heldAlready (s : State) (x : Staging) : Bool :=
  let p := s.ks.pair x.kind x.tenant
  let same (y : Slot) : Bool := y.readable && decide (bdDigest y.bundle = bdDigest x.bundle)
  same p.a || same p.b

/-- The next accepted bundle begins its write: both copies of the slot's closing page are erased first (R61). One that is held
already is acknowledged at once. -/
def State.beginStaging (s : State) : List Staging → State
  | [] => { s with lock := { s.lock with staging := [] } }
  | x :: rest =>
    if s.heldAlready x then (s.sendAck x 1).beginStaging rest
    else
      let b := s.chooseSlot x.kind x.tenant
      let p := s.ks.pair x.kind x.tenant
      { s with
        ks := s.ks.setPair x.kind x.tenant (p.put b .empty),
        lock := { s.lock with staging := { x with slotB := b } :: rest } }

/-- An accepted bundle waits its turn: the Lock stages one at a time, in the order in which arrivals complete. -/
def State.stage (s : State) (x : Staging) : State :=
  if s.lock.staging.isEmpty then s.beginStaging [x] else { s with lock := { s.lock with staging := s.lock.staging ++ [x] } }

/-- The sequence number of a new closing page: one more than the highest of the pair (R377). -/
def SlotPair.nextSeq (p : SlotPair) : BitVec 32 :=
  let n (x : Slot) : BitVec 32 := match x.closing.counted with
    | some c => c.1
    | none => 0
  (if n p.a < n p.b then n p.b else n p.a) + 1

/-- STAGING_COMPLETE (R61): both copies of the closing page are written and read back; BUNDLE-ACK goes out. -/
def execStagingComplete (s : State) : Out :=
  match s.lock.staging with
  | [] => .next s
  | x :: rest =>
    if s.power.phase = .run then
      let p := s.ks.pair x.kind x.tenant
      let ks := s.ks.setPair x.kind x.tenant (p.put x.slotB (.written x.kind p.nextSeq x.bundle (sha256 x.bundle)))
      let s := { s with
        ks := { ks with wrote := some (s.now, closingPage x.kind x.tenant x.slotB) },
        lock := { s.lock with staged := satInc s.lock.staged } }
      .next ((s.sendAck x 0).beginStaging rest)
    else .next s

/-! ### Arrival (R81) -/

/-- The epoch rules that need no decryption. -/
def State.arrivalEpoch (s : State) (b : List Byte) : List (Bool × Nat) :=
  match bdKind b with
  | some .charter => [(decide (s.lock.charterCtr.toNat ≤ bdEpoch b), rfEpoch)]
  | some .patch => [(decide (s.lock.patchCtr.toNat ≤ bdEpoch b), rfEpoch)]
  | some .enrol => [(decide (bdEpoch b = s.lock.banks.length + 1), rfSequence)]
  | _ => []

/-- A reassembled bundle: refused, or handed to staging. -/
def State.arrived (s : State) (b : List Byte) (transfer : BitVec 16) (source : BitVec 48) : State :=
  let tests := (decide (bdKind b ≠ some .restart), rfFormat) :: arrivalTests b ++ s.arrivalEpoch b
  match firstFail tests, bdKind b with
  | some code, _ => s.refuse b code
  | none, some k =>
    s.stage { kind := k, tenant := Fin.ofNat 16 (bdTenant b).toNat, slotB := false, bundle := b, transfer := transfer,
              source := source }
  | none, none => s.refuse b rfFormat

/-! ### Reassembly (R327) -/

/-- A transfer ends: the area is erased in the background. -/
def State.endTransfer (s : State) : State :=
  { s with ks := { s.ks with transfer := none, erasing := true, eraseFrom := s.now } }

/-- Program the bytes of a segment from `off`; none when one differs from a byte already received. -/
def program (area : List Host.Cell) (off : Nat) : List Byte → Option (List Host.Cell)
  | [] => some area
  | b :: bs =>
    match area.find? (fun c => decide (c.1 = off)) with
    | some c => if c.2 = b then program area (off + 1) bs else none
    | none => program (Mem.insert off b area) (off + 1) bs

/-- A segment of the open transfer. A range past T, bytes that differ and a total that differs (log 79, DEDUCED) abandon it. -/
def State.segment (s : State) (x : Transfer) (total off : Nat) (bytes : List Byte) : State :=
  if x.total < off + bytes.length ∨ total ≠ x.total then s.endTransfer
  else
    match program s.ks.area off bytes with
    | none => s.endTransfer
    | some area =>
      let s := { s with ks := { s.ks with area := area, transfer := some { x with lastAt := s.now } } }
      if area.length = x.total then s.endTransfer.arrived (area.map (·.2)) x.number x.source else s

/-- The open transfer has had no segment for 2 s, and `number` is another's. -/
def State.transferStale (s : State) (number : BitVec 16) : Bool :=
  match s.ks.transfer with
  | some x => decide (x.number ≠ number) && s.passed x.lastAt (2 * sec)
  | none => false

/-- The open transfer is abandoned and counted in RMBXF. Log 124, DEDUCED. -/
def State.abandon (s : State) : State := { s.endTransfer with mill := { s.mill with bxf := satInc s.mill.bxf } }

/-- A BUNDLE segment. A new transfer opens only once the area is erased and with T from 132 to 93 452. -/
def State.onBundle (s : State) (m : Message) : State :=
  let b := m.body
  let number : BitVec 16 := BitVec.ofNat 16 (fieldBE b 0 2)
  let total := fieldBE b 2 4
  let s := s.keeperHeard
  if !s.speaks || s.ks.erasing then s
  else if s.transferStale number then s.abandon
  else
    match s.ks.transfer with
    | some x => if x.number = number then s.segment x total (fieldBE b 6 4) (b.drop 10) else s
    | none =>
      if 132 ≤ total ∧ total ≤ 93452 then
        s.segment { number := number, total := total, lastAt := s.now, source := m.src } total (fieldBE b 6 4) (b.drop 10)
      else s

/-- A well-formed BUNDLE of the keeper for another node passes. -/
def State.overhears (s : State) (m : Message) : Bool :=
  decide (m.type = 3) && s.consumes && m.headOk && m.bodyOk && s.elsewhere m && s.fromKeeper m

/-- BUNDLE (R327). One for another node tells that the keeper is heard (Table MD-2). Log 106, DEDUCED. -/
def execBundle (m : Message) (s : State) : Out :=
  .next (if s.overhears m then s.keeperHeard else s.take m 0x03 (fun s => s.onBundle m))

/-- BUNDLE_TRANSFER_TIMEOUT (R327): a segment of another transfer finds one open that has been idle for 2 s. -/
def execBundleTransferTimeout (m : Message) (s : State) : Out :=
  .next (s.take m 0x03 (fun s =>
    if s.speaks && s.transferStale (BitVec.ofNat 16 (fieldBE m.body 0 2)) then s.keeperHeard.abandon else s))

/-- REASSEMBLY_ERASE_COMPLETE (R327): a new transfer may open. -/
def execReassemblyEraseComplete (s : State) : Out :=
  if s.ks.erasing = true ∧ s.power.phase = .run then .next { s with ks := { s.ks with erasing := false, area := [] } } else .next s

/-! ### RESTART (R92) -/

/-- The checks of R92 in their order. -/
def State.restartTests (s : State) (b : List Byte) : List (Bool × Nat) :=
  (decide (bdKind b = some .restart), rfFormat) :: arrivalTests b
    ++ [(hashesOk s.lock.inForce 0 b, rfKeyhash), (decide (bdContentLen b = 4), rfContent),
        (decide (fieldBE b 20 8 = s.lock.nonce.toNat), rfNonce), (decide (s.power.phase = .run), rfState)]

def State.onRestart (s : State) (m : Message) : State :=
  match firstFail (s.restartTests m.body) with
  | some code => s.refuse m.body code
  | none => s.decideStop .restart (BitVec.ofNat 32 (fieldBE m.body 112 4))

/-- RESTART (R92, R329). -/
def execRestart (m : Message) (s : State) : Out := .next (s.take m 0x0b (fun s => s.onRestart m))

end Sys2Proof.Machine
end

