-- ==== Sys2Proof/Machine/FabricEvents.lean ====
section
/-! DEFINITION. The fabric's events (R275, R281 to R288): tree edges, taps, posts, clock switches and run-time reconfiguration. -/

namespace Sys2Proof.Machine

/-! ### Tree edges -/

/-- A change of source holds the tree of region `n` low, or the neighbour's tree that it follows (R285). -/
def State.treeHeld (s : State) : Nat → Bool
  | 0 => held 0
  | n + 1 => held (n + 1) || (decide ((s.region (Fin.ofNat 16 (n + 1))).source = 4) && s.treeHeld n)
where
  held (n : Nat) : Bool :=
    let x := s.region (Fin.ofNat 16 n)
    x.sw && decide (x.newSource ≠ x.source)

/-- Whether the tree of region `r` runs: a source with edges, not held low by a change of source, and not stopped by parking. -/
def State.treeRuns (s : State) (r : Region) : Bool :=
  decide (s.power.phase = .run) && decide (s.treeSource r.val ≠ 0) && decide ((s.treeSource r.val).toNat < 4)
  && !s.treeStopped r && !s.treeHeld r.val

/-- One rising edge in a running region: the flip-flops load what the cells saw before it, and the tracks and port outputs follow
(R275, R276). A new tree cycle begins. -/
def RegionSt.edge (x : RegionSt) (border : Vector Bool 40) : RegionSt :=
  let ffs := clockCells x.image (x.inputs border) x.ffs
  let y := x.shiftIn border
  { y with
    ffs := ffs, outs := tracksOf x.image (cellsOut x.image (y.inputs border) ffs), edges := x.edges + 1, tapTaken := false,
    postTaken := false, fresh := false }

/-- One rising edge of the tree of a region that does not run: the clock to the cells is stopped (Table MN-6), and the tree and its
synchronisers go on. -/
def RegionSt.idleEdge (x : RegionSt) (border : Vector Bool 40) : RegionSt := { x.shiftIn border with edges := x.edges + 1 }

/-- REGION_TREE_EDGE (R275, R281). -/
def execRegionTreeEdge (r : Region) (s : State) : Out :=
  if s.treeRuns r then
    .next (s.modRegion r (fun x =>
      if x.state = .running then x.edge (s.borderInputs r) else x.idleEdge (s.borderInputs r)))
  else .next s

/-- The change of a tree is complete: a direct region's edges stand where the divider's stand in the frame period (R281, R285). -/
def State.switchTree (s : State) (x : RegionSt) : RegionSt :=
  { x with
    source := x.newSource, divM1 := x.newDiv, sw := false,
    edges := (s.now - s.mea.frameAt) * 768 / 15625 / (x.newDiv.toNat + 1) }

/-- CLOCK_SWITCH_COMPLETE (R285): MNCLK.SW clears. -/
def execClockSwitchComplete (r : Region) (s : State) : Out :=
  .next (s.modRegion r (fun x => if x.sw then s.switchTree x else x))

/-! ### Taps (R282) -/

/-- One event to every inlet that names the region. -/
def State.deliverTap (s : State) (r : Region) (b : Bool) : State :=
  allStrips.foldl (fun s k =>
    if s.mea.tapValid.getLsbD k.val && decide (s.mea.tapRegion[k].toNat = r.val) && (s.strip k).inlet.en
        && decide ((s.strip k).inlet.src = 0x10) then
      s.pushBit k s.time.si b {}
    else s) s

/-- TAP_EVENT (R282): one event in a tree cycle whose tap strobe is 1. A direct region's goes to the inlets; another's waits in the
FIFO of eight, or is lost and counted when that is full. Log 113, DESIGN CHOICE. -/
def execTapEvent (r : Region) (s : State) : Out :=
  let x := s.region r
  if x.state = .running ∧ x.tapTaken = false ∧ x.outputOf 2 = some true then
    let b := (x.outputOf 1).getD false
    if x.direct then
      .next ((s.modRegion r (fun x => { x with tapTaken := true, taps := x.taps + 1 })).deliverTap r b)
    else if x.tapFifo.length < 8 then
      .next (s.modRegion r (fun x => { x with tapTaken := true, taps := x.taps + 1, tapFifo := x.tapFifo ++ [.whole b] }))
    else .next (s.modRegion r (fun x => { x with tapTaken := true, tlost := satInc x.tlost }))
  else .next s

/-- One item leaves a region's tap FIFO, one per CK_S cycle. -/
def State.drainTap (s : State) (r : Region) : State :=
  match (s.region r).tapFifo with
  | b :: rest => (s.modRegion r (fun x => { x with tapFifo := rest })).deliverTap r b.item
  | [] => s

/-! ### Posts (R283) -/

/-- The NI of a region's posts: MW for 0 to 7, ME for 8 to 15. -/
def postNi (r : Region) : NiId := if r.val < 8 then 0x0f else 0x0e

/-- The default label of tenant `t` (Table WR-1). -/
def State.defaultLabel (s : State) (t : Ctx) : BitVec 4 :=
  match s.lock.charter with
  | some c => match c.tenants[t] with
    | some x => BitVec.ofNat 4 x.defClass
    | none => 0
  | none => if t = 0 then 1 else 0

/-- The post word: outputs with functions 10h to 2Fh. -/
def RegionSt.postWord (x : RegionSt) : BitVec 32 :=
  BitVec.ofNat 32 ((List.range 32).foldl (fun n i => if x.outputOf (BitVec.ofNat 8 (0x10 + i)) = some true then n + 2 ^ i else n) 0)

/-- A post that is not performed: counted, and its cause in the owner. -/
def State.dropPost (s : State) (r : Region) (t : Ctx) (code : BitVec 6) (addr : BitVec 18) : State :=
  (s.modRegion r (fun x => { x with pdrop := satInc x.pdrop })).raiseAsync t code 3 (addr.zeroExtend 36)

/-- One post goes out as WRW under the tag (R283). -/
def State.sendPost (s : State) (r : Region) (t : Ctx) (tag : BitVec 6) (addr : BitVec 18) (w : BitVec 32) : State :=
  match s.translate t addr true with
  | none => s.dropPost r t causeNiwin addr
  | some p =>
    (s.modRegion r (fun x => { x with posted := x.posted + 1, unack := x.unack + 1 })).sendRequest (postNi r) cmdWrw t
      (s.defaultLabel t) tag p 0 (.post r addr) [w.zeroExtend 72]

/-- A post waits behind an older one of its region that still waits on its way, at eight unacknowledged, and, to a mailbox, for
every older one (R251, R283). -/
def State.postHeld (s : State) (r : Region) (t : Ctx) (addr : BitVec 18) : Bool :=
  s.net.waits.any (fun p => match p.req.purpose with
    | .post g _ => decide (g = r)
    | _ => false)
  || decide (8 ≤ (s.region r).unack)
  || ((s.region r).unack != 0 && (match s.translate t addr true with
    | some p => (mailboxOf p).isSome
    | none => false))

/-- The oldest item of a region's post FIFO leaves, if it may. -/
def State.drainPost (s : State) (r : Region) : State :=
  match (s.region r).fifo, (s.region r).owner, s.nextTag (postNi r) with
  | x :: rest, some t, some tag =>
    if s.postHeld r t x.item.1 then s
    else (s.modRegion r (fun y => { y with fifo := rest })).sendPost r t tag x.item.1 x.item.2
  | _, _, _ => s

/-- POST (R283): one word in a tree cycle with post valid and post ready; MNPADDR advances. A direct region's word leaves at once unless
older ones wait. -/
def execPost (r : Region) (s : State) : Out :=
  let x := s.region r
  if x.state = .running ∧ x.postTaken = false ∧ x.outputOf 0x30 = some true ∧ x.postReady = true then
    let s := s.modRegion r (fun x =>
      { x with postTaken := true, paddr := x.paddr + 1, fifo := x.fifo ++ [.whole (x.paddr, x.postWord)] })
    .next (if x.direct then s.drainPost r else s)
  else .next s

/-! ### Run-time reconfiguration (R286, R287) -/

/-- RECONFIGURATION_START (Table MN-6, instant E): the oldest request is taken and the region parks; items in its FIFOs stay to be
delivered. The engine works in RUN. -/
def execReconfigurationStart (s : State) : Out :=
  match s.mea.engine, s.mea.queue with
  | none, r :: rest =>
    if s.power.phase ≠ .run then .next s
    else
      match (s.region r).reqSlot with
      | some slot =>
        let s := s.modRegion r (fun x =>
          { x with
            reqSlot := none, state := .parked, outs := Vector.ofFn (fun k => parkBit x.image x.outs k), tapTaken := true,
            postTaken := true })
        .next { s with mea := { s.mea with queue := rest, engine := some (r, slot) } }
      | none => .next { s with mea := { s.mea with queue := rest } }
  | _, _ => .next s

/-- The new image takes the region: every flip-flop at INIT, the tree unchanged; the outputs stay parked, and MNSTAT shows it parked,
until the first edge. -/
def RegionSt.load (x : RegionSt) (im : Image) (slot : BitVec 2) : RegionSt :=
  { x with
    state := .running, image := { im with source := x.image.source, divM1 := x.image.divM1 }, slot := slot, full := false,
    ffs := im.inits, rcnt := satInc x.rcnt, fresh := true }

/-- An uncorrectable unit of EB1 leaves the region in error: a C2 fault confined to it, and MNIMG to its owner (R287, R353). -/
def State.imageError (s : State) (r : Region) (slot : BitVec 2) : State :=
  let s := s.modRegion r (fun x => { x with state := .error, rfail := satInc x.rfail })
  let owner := (s.region r).owner
  let s := s.takeFault 0x34 (BitVec.ofNat 8 r.val) slot.toNat owner none
  match owner with
  | some t => s.signal t 0 [plainCause causeMnimg (BitVec.ofNat 4 r.val)]
  | none => s

/-- The bytes of units, lowest first (R277). -/
def unitsBytes (us : List (BitVec 72)) : List Byte := us.flatMap (fun u => (List.range 9).map (fun i => u.extractLsb' (8 * i) 8))

/-- The engine reads the 128 units of a slot of EB1 with QC 0 (R280, R286), each with the SECDED outcome that befalls it (R255): what it
reads with the poison, and the trips in packets of sixteen through the region's NI. Log 145, DESIGN CHOICE. -/
def State.readSlot (s : State) (r : Region) (slot : BitVec 2) (ecc : List (Nat × Ecc)) : List (BitVec 72 × Bool) × State :=
  let us := (unitsFrom (slotAt r slot) 128).mapIdx (fun i p => (p, eccAt ecc i))
  State.readsAt true us s.cycle ((s.forward (postNi r) (slotAt r slot).ni 8).forward (slotAt r slot).ni (postNi r) 136)

/-- RECONFIGURATION_COMPLETE (R286, R287). A stop leaves the region parked (Edges of 16). -/
def execReconfigurationComplete (ecc : List (Nat × Ecc)) (s : State) : Out :=
  match s.mea.engine with
  | none => .next s
  | some (r, slot) =>
    if s.power.phase ≠ .run then .next s
    else
      let x := { s with mea := { s.mea with engine := none } }.readSlot r slot ecc
      .next (if x.1.any (·.2) then x.2.imageError r slot
        else x.2.modRegion r (fun y => y.load (imageOf (unitsBytes (x.1.map (·.1)))) slot))

end Sys2Proof.Machine
end

