-- ==== Sys2Proof/Machine/Outbox.lean ====
section
/-! DEFINITION. The outbox (R320 to R322): the Lock takes a tenant's records, its verdict, its finding, and what the first house
verdict opens (R52, R325). -/

namespace Sys2Proof.Machine

/-- The Lock's NI (Table TR-1). -/
def lkNi : NiId := 0x12

/-- The first word of the outbox: block 0 of W0, while W0 is valid and writable (R320). -/
def State.outbox (s : State) (t : Ctx) : Option Phys :=
  let w := (s.ctx t).wins[0]
  if w.valid && w.writable then some { eddy := w.eddy, word := w.phys.toNat * 2048 } else none

/-- Word `i` of the outbox at `p`. -/
def Phys.plus (p : Phys) (i : Nat) : Phys := { p with word := p.word + i }

/-- A word reads clean. -/
def State.cleanAt (s : State) (p : Phys) : Bool := !s.poisoned p && decide ((s.bank p.bank).state ≠ .offline)

/-- HEAD as it stands. -/
def State.headOf (s : State) (p : Phys) : BitVec 16 := (s.peek p).extractLsb' 0 16

/-- Every record of tenant `t` has been taken (R107). -/
def State.outboxTaken (s : State) (t : Ctx) : Bool :=
  match s.outbox t with
  | some p => decide (s.headOf p = (s.tfind t).taken)
  | none => true

/-- A packet of the Lock to `p` and its response, with QC 0 (R244, R266). -/
def State.lockTrip (s : State) (p : Phys) (cycles out back : Nat) : State :=
  ((s.weirAccess p 0 s.cycle cycles s.cycle).forward lkNi p.ni out).forward p.ni lkNi back

/-- The Lock reads `n` units from the unit of `p` with QC 0, each with the SECDED outcome that befalls it (R255). -/
def State.lockRead (s : State) (p : Phys) (n : Nat) : State :=
  if (s.bank p.bank).state = .offline then s
  else
    let x := s.takeFate
    let us := (unitsFrom p n).mapIdx (fun i u => (u, eccAt x.1.ecc i))
    (State.readsAt p.eddy us x.2.cycle (x.2.touchBank p)).2.lockTrip p n 1 (1 + n)

/-- The new count goes to TAIL. -/
def State.writeTail (s : State) (p : Phys) (n : BitVec 16) : State :=
  let q := p.plus 1
  if (s.bank q.bank).state = .offline then s
  else ((((s.touchBank q).countMerge q).lockTrip q 2 2 1).poke q (n.zeroExtend 36)).snoopPosted q

/-! ### Records (Table MR-5) -/

def recKind (d : Word) : Nat := (d.extractLsb' 0 8).toNat
def recVerdict (d : Word) : Verdict :=
  match (d.extractLsb' 8 2).toNat with
  | 1 => .clear
  | 2 => .watch
  | 3 => .alarm
  | _ => .none
def recLen (d : Word) : Nat := (d.extractLsb' 10 11).toNat

/-- The words of a record with a body of `b` bytes. -/
def recWords (b : Nat) : Nat := 4 + (b + 3) / 4

/-- The body's bytes, four to a word. -/
def State.recBody (s : State) (p : Phys) (b : Nat) : List Byte :=
  (List.range b).map (fun i => (s.peek (p.plus (4 + i / 4))).extractLsb' (8 * (i % 4)) 8)

/-- Why a record at `p` is refused (R321, Table FL-9): 04h poisoned, 01h a reserved bit, 02h kind, 03h length; the first that holds
in this order (log 80, DEDUCED). -/
def State.recRefused (s : State) (p : Phys) : Option Nat :=
  let d := s.peek p
  let b := recLen d
  let n := if s.cleanAt p && decide (b ≤ 1420) then recWords b else 4
  let word (i : Nat) : Phys := p.plus i
  if !(List.range n).all (fun i => s.cleanAt (word i)) then some 4
  else if d.extractLsb' 21 15 ≠ 0 ∨ (s.peek (word 2)).extractLsb' 28 8 ≠ 0 ∨ (s.peek (word 3)).extractLsb' 32 4 ≠ 0
      ∨ (List.range (n - 4)).any (fun i => decide ((s.peek (word (4 + i))).extractLsb' 32 4 ≠ 0)) = true then some 1
  else if 0xef < recKind d then some 2
  else if 1420 < b then some 3
  else none

/-! ### The first house verdict (R8, R52, R325) -/

/-- What the first house verdict opens: findings formed earlier go out, and the start report and the system findings that waited are
formed. -/
def State.openRun (s : State) : State :=
  let early := s.find.early
  let waiting := s.find.waiting
  let report := s.find.report.flatten ++ s.auxEntry
  let s := { s with find := { s.find with early := [], waiting := [], report := [] } }
  let s := early.foldl (fun s f => s.sendFinding f) s
  let s := s.formSystem 0xf0 report
  waiting.foldl (fun s w => s.formSystem w.1 w.2) s

/-- Taking a record fixes the tenant's verdict when it carries one; T0's is the house verdict, and HALE follows (R322). -/
def State.fixVerdict (s : State) (t : Ctx) (v : Verdict) : State :=
  if v = .none then s
  else
    let s := s.modFind t (fun x => { x with verdict := v })
    if t = 0 ∧ s.find.verdictAt.isNone then
      ({ s with find := { s.find with verdictAt := some s.now } }).decideHale.openRun
    else s.decideHale

/-- The record at `p` is taken: its verdict, then its finding. -/
def State.takeRecord (s : State) (t : Ctx) (p : Phys) : State :=
  let d := s.peek p
  let si := (s.peek (p.plus 1)).toNat + 2 ^ 36 * ((s.peek (p.plus 2)).extractLsb' 0 28).toNat
  let len := ((s.peek (p.plus 3)).extractLsb' 0 32).toNat
  let body := s.recBody p (recLen d)
  (s.fixVerdict t (recVerdict d)).formFinding t (BitVec.ofNat 8 (recKind d)) (recVerdict d).code si len body false

/-- A refused record is counted and recorded as a C1 fault (R321). -/
def State.refuseRecord (s : State) (t : Ctx) (slot reason : Nat) : State :=
  (s.modFind t (fun x => { x with refused := satInc x.refused })).c1 0x4d (BitVec.ofNat 8 slot) (reason * 256) (some t)

/-- The Lock reads the record at `r`, as long as its descriptor says. -/
def State.recordRead (s : State) (r : Phys) : State :=
  let b := recLen (s.peek r)
  let words := if b ≤ 1420 then recWords b else 4
  s.lockRead r ((r.word + words - 1) / 2 - r.word / 2 + 1)

/-- The next record of tenant `t`, tested as the read finds it. -/
def State.nextRecord (s : State) (t : Ctx) (p : Phys) : State :=
  let n := (s.tfind t).taken
  let slot := n.toNat % 4
  let r := p.plus (4 + 511 * slot)
  let s := s.recordRead r
  let s := match s.recRefused r with
    | some reason => s.refuseRecord t slot reason
    | none => s.takeRecord t r
  (s.modFind t (fun x => { x with taken := n + 1 })).writeTail p (n + 1)

/-- OUTBOX_RECORD_TAKE (R321, R322): HEAD stands above the count of records taken; one more than 4 ahead halts the context. The Lock
reads no outbox while the array is parked, and does not act on a poisoned HEAD. Log 115, DEDUCED. -/
def execOutboxRecordTake (t : Ctx) (s : State) : Out :=
  match s.outbox t with
  | none => .next s
  | some p =>
    if s.power.phase ≠ .run ∨ s.modes.parked = true ∨ (s.headOf p = (s.tfind t).taken ∧ s.cleanAt p = true) then .next s
    else
      let s := s.lockRead p 1
      let ahead := (s.headOf p - (s.tfind t).taken).toNat
      if !s.cleanAt p then .next s
      else if ahead ≤ 4 then .next (s.nextRecord t p)
      else if (s.ctx t).live then
        let (k, s) := s.takeFree
        .next ((s.recordCause t 0x36 (Config.freeWord k) 0 false).haltCtx t 0x36 0xff (s.headOf p).toNat none)
      else .next s

end Sys2Proof.Machine
end

