-- ==== Sys2Proof/Machine/ModeEvents.lean ====
section
/-! DEFINITION. Mode events: the commit of a request (R98, R105, R109), PROOF windows (R109, R110), parking and the wake of Pool
(R107, R253), and the end of a burst by its length (R115). -/

namespace Sys2Proof.Machine

/-! ### Commits -/

/-- The mask replaces the request; a new request for a window clears PRFREF. -/
def Modes.commit (m : Modes) (t : Ctx) (mask : Byte) : Modes :=
  { m with
    req := m.req.set t mask,
    prfref := if mask.getLsbD 7 && !m.req[t].getLsbD 7 then m.prfref &&& ~~~(1#16 <<< t.val) else m.prfref }

/-- A burst ends when CAPTURE leaves the context's grant (R115). -/
def State.grantBurst (s : State) (t : Ctx) : State := if s.granted t mCapture then s else s.endBurst t endGrant

/-- A request commits: ACT, the bursts and the PROOF schedule follow. -/
def State.commitMode (s : State) (t : Ctx) (mask : Byte) : State :=
  let s := ({ s with modes := s.modes.commit t mask }).grantBurst t
  (s.planProof.applyAct 0 []).retarget

/-- MODE_COMMIT (R105): the shadow has passed. A synchronous cause of the shadow is taken after it, with MS set. -/
def execModeCommit (t : Ctx) (s : State) : Out :=
  match (s.ctx t).shadow with
  | none => .next s
  | some sh =>
    if sh.left = 0 then
      let s := (s.modCtx t (fun c => { c with shadow := none })).commitMode t sh.mask
      .next (match sh.pending with
        | some r => s.takeSync t r
        | none => s)
    else .next s

/-! ### PROOF windows -/

/-- A window opens now: PROOF enters, CK_A goes to 500 MHz, and floors that it puts out of force count (R109, R344). -/
def State.openWindow (s : State) (scheduled : Bool) (who : Option Ctx) : State :=
  let len := (if scheduled then scheduledMs else requestedMs) * ms
  let s := { s with
    modes := { s.modes with
      window := some { scheduled := scheduled, requester := who, openAt := s.now, closeAt := s.now + len },
      dueAt := if scheduled then s.wholeSecond + 3600 * sec else s.modes.dueAt },
    gauge := { s.gauge with outWin := 0 }, ct := { s.ct with axis := none, stInvalid := false } }
  let s := s.hwMode mProof true (1#7 <<< evProof) [plainCause causeProof 1]
  (allCtx.foldl (fun s t => s.checkFloor t) s).retarget

/-- The requested window that is planned for now. -/
def State.requestDue (s : State) : Option Ctx :=
  match s.modes.window with
  | some w => if !w.scheduled && s.passed w.openAt 0 then w.requester else none
  | none => none

/-- PROOF_WINDOW_OPEN (R109): the scheduled window at its whole second, otherwise the requested one whose second has come.
Log 107, DEDUCED. -/
def execProofWindowOpen (s : State) : Out :=
  if s.power.phase ≠ .run ∨ s.proofOpen = true then .next s
  else if s.modes.dueAt ≤ s.wholeSecond then .next (s.openWindow true none)
  else
    match s.requestDue with
    | some t => .next (s.openWindow false (some t))
    | none => .next s

/-- The PROOF entry of an F1h finding: CTSTRES [21:0] of every channel. -/
def State.proofEntry (s : State) : List Byte :=
  sysEntry 0x0010 (allChans.flatMap (fun ch => bytesBE ((s.chan ch).stres.extractLsb' 0 22).toNat 3))

/-- The window's record, the clearing of bit 7, and the next plans. -/
def Modes.endWindow (m : Modes) (w : ProofWindow) (now : Nat) : Modes :=
  { m with
    window := none, vigilLate := false, dueAt := Nat.max m.dueAt now,
    usedLog := (now, if w.scheduled then scheduledMs else requestedMs, w.scheduled)
      :: m.usedLog.filter (fun e => decide (now < e.1 + 3600 * sec)),
    req := match w.requester with
      | some t => m.req.set t (m.req[t] &&& 0x7f)
      | none => m.req }

/-- The result for the tenant that asked for the window: its next finding carries it (R110). T0 has it in the F1h finding. -/
def State.tellRequester (s : State) (w : ProofWindow) : State :=
  match w.requester with
  | some t => if t = 0 then s else s.modFind t (fun x => { x with proof := s.proofEntry })
  | none => s

/-- The end of the open window. Log 108, DESIGN CHOICE. -/
def State.closeWindow (s : State) (w : ProofWindow) : State :=
  let s := (s.showActuation none).tellRequester w
  let s := { s with modes := s.modes.endWindow w s.now, ct := { s.ct with axis := none, stInvalid := false } }
  let s := s.hwMode mProof false (1#7 <<< evProof) [plainCause causeProof 2]
  (s.dueRanges.planProof.formSystem 0xf1 s.proofEntry).retarget

/-- PROOF_WINDOW_END (R109, R110, R133): the last axis is evaluated, PROOF leaves, and T0's F1h finding holds the result. -/
def execProofWindowEnd (last : Option AxisMeas) (s : State) : Out :=
  match s.modes.window with
  | some w =>
    if s.proofOpen = true ∧ s.passed w.closeAt 0 = true then
      let s := match last with
        | some m => s.evaluateAxis m
        | none => s
      .next (s.closeWindow w)
    else .next s
  | none => .next s

/-! ### Parking -/

/-- A wait that lets the array park: no event of bits 0 to 2, and no timeout within 50 ms (R107). -/
def State.parkable (s : State) (w : Waiting) : Bool :=
  decide (w.mask &&& 7 = 0)
  && (match w.deadline with
      | none => true
      | some (.inl d) => decide (s.now + 50 * ms ≤ d)
      | some (.inr d) => decide (50000 ≤ (d % 2 ^ 36 + 2 ^ 36 - s.ringUs % 2 ^ 36) % 2 ^ 36)
          && !deadlinePast s.now s.ringUs (.inr d))

/-- SENTINEL is in ACT with no SU ruling, every outbox is taken, and every live context waits suitably. -/
def State.mayPark (s : State) : Bool :=
  decide (s.power.phase = .run) && !s.modes.parked && s.inAct mSentinel && !s.inAct mProof && !s.inAct mVigil
  && allCtx.all (fun t => s.outboxTaken t)
  && allCtx.all (fun t => !(s.ctx t).live || (match (s.ctx t).waiting with
      | some w => s.parkable w
      | none => false))

/-- ARRAY_PARK (R107): the store buffers drain, and once they are empty (Table PB-7) the array stops. Each Pool group enters retention,
or follows when its queue is empty (R253, Edges of 14). -/
def execArrayPark (s : State) : Out :=
  if s.mayPark then
    let s := allUnits.foldl (fun s n => s.drainUnit n) s
    if allUnits.all (fun n => (s.hunit n).buffer.isEmpty) then
      let s := { s with
        modes := { s.modes with parked := true, follow := 15, parkedAt := s.now }, gauge := { s.gauge with estAt := s.now } }
      .next ((allGroups.filter (fun g => !s.queueHolds g)).foldl (fun s g => s.retainGroup g) s)
    else .next s
  else .next s

/-- Bank `b` has risen: its wake has taken 40 us. -/
def Bank.risen (b : Bank) (now : Nat) : Bool := decide (b.state = .waking) && decide (b.wakeAt + 40000 ≤ now)

/-- The banks of group `g`. -/
def groupBanks (g : Group) : List BankId := (List.range 4).map (fun i => Fin.ofNat 20 (4 * g.val + i))

/-- A bank serves again: its scrubber goes on from where the pause began (R253). -/
def Bank.serveAgain (b : Bank) (now : Nat) : Bank := { b with state := .active, scrubAt := b.scrubAt + (now - b.downAt) }

/-- POOL_WAKE_COMPLETE (R253): 40 us from the wake's start, the group's banks serve again. The cycles they lost count in
the window (R274). -/
def execPoolWakeComplete (g : Group) (s : State) : Out :=
  let up := (groupBanks g).filter (fun b => (s.bank b).risen s.now)
  let lost := up.foldl (fun n b => n + s.lostCycles b) 0
  .next (up.foldl (fun s b => s.modBank b (fun x => x.serveAgain s.now)) (s.loseCycles g lost))

/-! ### Bursts -/

/-- CAPTURE_LEN_REACHED (R115): LEN samples of SI have passed since the burst began. That the samples which a change of SI passes over
count toward LEN is the model's choice: R115 and R123 do not say (log 137, DESIGN CHOICE). -/
def execCaptureLenReached (t : Ctx) (s : State) : Out :=
  let c := (s.ctx t).cap
  if c.burst = true ∧ c.len ≠ 0 ∧ c.len.toNat ≤ (s.time.si - c.fromSi).toNat then .next (s.endBurst t endLen).retarget else .next s

end Sys2Proof.Machine
end

