-- ==== Sys2Proof/Machine/Net.lean ====
section
/-! DEFINITION. The packets that come as commands (R229 to R243): requests, what PD answers, responses at the requester, snoops,
timeouts and flushes, and the cycles of the network and the banks. A response waits at its tag until the response's command
delivers it (log 83, DESIGN CHOICE). -/

namespace Sys2Proof.Machine

/-! ### Requests at their NI -/

/-- The die runs, the route is valid (R234), and a tag is free unless the request is posted. -/
def State.ready (s : State) (q : Req) (posted : Bool) : Bool :=
  s.dieOn && (s.routeTo q.src q.dest).valid && (posted || s.tagOpen q.src q.tag)

/-- What a unit sends for the context that runs on it (R231, R260, R369): loads, fills and register transactions under the label in
force, stores under a class of its tenant's. The checks of a register read are made in EX, before (R193). -/
def State.unitSends (s : State) (n : UnitId) (cmd : BitVec 5) (q : Req) : Bool :=
  let t := q.ten
  decide ((s.hunit n).ctx = some t) && !(s.hunit n).offline && (s.ctx t).live
  && (match q.purpose with
      | .load c _ => decide (c = t) && decide (cmd = cmdRd) && decide (q.qc = s.label t)
      | .fetch c _ => decide (c = t) && decide (cmd = cmdRdi) && decide (q.qc = s.label t)
      | .store c _ => decide (c = t) && decide (cmd = cmdWrw) && (decide (q.qc = s.label t) || s.ownsClass t q.qc.toNat)
      | .register c i => decide (c = t) && decide (i = q.addr.extractLsb' 0 13) && decide (q.qc = s.label t) && decide (q.dest = niPd)
          && (decide (cmd = cmdRegwr)
              || (decide (cmd = cmdRegrd) && ((decodeIndex i).map (fun a => s.readGrant t a)).getD false))
      | _ => false)

/-- What each NI sends (Table TR-1, R231, R260): a unit for the context that runs on it, an outlet quad for a strip's owner under
OUTCTL.QC, a Meander NI for a region's owner under its default label, and a system NI under QC 0. -/
def State.mayRequest (s : State) (cmd : BitVec 5) (q : Req) : Bool :=
  if q.src.val < 4 then s.unitSends (Fin.ofNat 4 q.src.val) cmd q
  else if q.src.val < 8 then
    match q.purpose with
    | .outlet k => decide (cmd = cmdWrp) && decide (quadNi k = q.src) && decide ((s.strip k).owner = some q.ten)
        && decide (q.qc = (s.strip k).outlet.qc)
    | _ => false
  else if q.src = 0x0e ∨ q.src = 0x0f then
    match q.purpose with
    | .post r _ => decide (cmd = cmdWrw) && decide (postNi r = q.src) && decide ((s.region r).owner = some q.ten)
        && decide (q.qc = s.defaultLabel q.ten)
    | _ => false
  else decide (q.ten = 0) && decide (q.qc = 0) && decide (q.purpose = .system) && decide (cmd ≠ cmdRegrd) && decide (cmd ≠ cmdRegwr)

/-! ### Destinations -/

/-- REGRD and REGWR at PD, one at a time in the order of their headers (R369). A write that PD finds refused, and a reserved index, are
not served (log 84, DEDUCED). -/
def State.servePd (s : State) (p : Packet) : State :=
  let q := p.req
  let w := (p.units.getD 0 0).extractLsb' 0 36
  match decodeIndex (q.addr.extractLsb' 0 13) with
  | none => s.refusePacket p 2
  | some a =>
    if p.cmd = cmdRegrd then
      let y := s.performReg q.ten a none false
      y.1.answer q.src q.tag y.2
    else if p.cmd = cmdRegwr then
      if p.bad = true ∨ p.units = [] then s.answer q.src q.tag (.err 1)
      else
        match s.regWrite q.ten a w with
        | .done s' => s'.answer q.src q.tag .ack
        | .refused => s.answer q.src q.tag (.err 2)
        | .cause r => (s.syncRaise q.ten r.code (q.addr.extractLsb' 0 13).toNat).answer q.src q.tag .ack
    else s.refusePacket p 2

/-- A packet arrives at its destination: PD, Pool or Eddy; another NI serves no request of Table TR-4 but the bundle stream (log 85),
and answers any other with ERR 02h (R232). -/
def State.landAny (s : State) (p : Packet) : State :=
  if p.cmd = cmdBstr then s
  else if p.req.dest = niPd then s.servePd p
  else if memoryNi p.req.dest then s.land p
  else s.refusePacket p 2

/-- The packet is sent. -/
def State.launchAny (s : State) (p : Packet) : State :=
  match s.inject p with
  | (some p, s) => s.landAny p
  | (none, s) => s

/-- A packet formed at its NI: it leaves at once, or waits there (R265). -/
def State.offerAny (s : State) (p : Packet) : State :=
  if s.mayInject p then s.launchAny p else ((s.noteShort p).wait p .atNi)

/-- A request at its NI (R232, R235): `n` is how many units it touches. -/
def State.request (s : State) (cmd : BitVec 5) (q : Req) (n : Nat) (units : List (BitVec 72)) (bad posted : Bool) : State :=
  let p : Packet := { cmd := cmd, req := q, units := units, bad := bad, own := false, posted := posted, back := [], stage := .atNi,
                      since := 0 }
  if s.ready q posted = false ∨ s.mayRequest cmd q = false then s
  else if s.niAllows q (cmdWrites cmd) n = false then s.toRequester q.purpose causeNiwin
  else s.offerAny p

def execRd (q : Req) (s : State) : Out := .next (s.request cmdRd q q.units [] false false)
def execRdi (q : Req) (s : State) : Out := .next (s.request cmdRdi q q.units [] false false)
def execWr (q : Req) (units : List (BitVec 72)) (poison : Bool) (s : State) : Out :=
  .next (s.request cmdWr q q.units units poison false)
def execWrp (q : Req) (units : List (BitVec 72)) (poison : Bool) (s : State) : Out :=
  .next (s.request cmdWrp q q.units units poison true)
def execWrw (q : Req) (word : Word) (poison : Bool) (s : State) : Out :=
  .next (s.request cmdWrw q 1 [word.zeroExtend 72] poison false)
def execRegrd (q : Req) (s : State) : Out := .next (s.request cmdRegrd q 1 [] false false)
def execRegwr (q : Req) (value : Word) (poison : Bool) (s : State) : Out :=
  .next (s.request cmdRegwr q 1 [value.zeroExtend 72] poison false)

/-- BSTR (R229, R232): the stream's units travel from one engine to the other under end-to-end credit, which the sink gives
back at once; what the engines do with a bundle's bytes is in their own commands (log 85, DESIGN CHOICE). -/
def execBstr (q : Req) (units : List (BitVec 72)) (s : State) : Out := .next (s.request cmdBstr q 1 units false true)

/-! ### Responses -/

/-- The VN of the response that waits at a tag. -/
def Tag.respVn (x : Tag) : Option Vn :=
  match x.resp with
  | some (.rdata _) => vnOf cmdRdata x.req.qc
  | some _ => vnOf cmdAck x.req.qc
  | none => none

/-- How a response ranks at the NI that sends it: by its class toward the group that sends it (R267). -/
def State.respRank (s : State) (x : Tag) : Nat := s.rank x.req.qc (if memoryNi x.req.dest then x.req.phys.group else none)

/-- Response `y` leaves its destination before response `x` (R236, R268): those to one NI on one VN in the order sent, and otherwise the
higher rank, the older among equals. -/
def State.goesFirst (s : State) (y x : Tag) : Bool :=
  y.resp.isSome && !y.own && decide (y.req.dest = x.req.dest) && decide (y.respVn = x.respVn)
  && (if y.ni = x.ni then decide (y.respAt < x.respAt)
      else decide (s.respRank x < s.respRank y) || (decide (s.respRank x = s.respRank y) && decide (y.respAt < x.respAt)))

/-- The response that waits at the tag is the next to leave its destination on its VN. -/
def State.mayDeliver (s : State) (x : Tag) : Bool := x.resp.isSome && s.net.tags.all (fun y => !s.goesFirst y x)

/-- A response crosses the network and meets its tag (R237, R241): one lost on its way, or one for a retired tag, is
discarded, the second counted as late. `use` is what the requester makes of it, of the units that have come. Log 123, DEDUCED. -/
def State.respond (s : State) (x : Tag) (d : Damage) (r : Response) (use : List (BitVec 72 × Bool) → State → State) : State :=
  let gone (x : Tag) : Tag := { x with resp := none }
  match s.transit x.req.dest x.ni d (responseUnits x.req (s.routeTo x.req.dest x.ni).hops r) with
  | (none, s) => s.modTag x.ni x.tag gone
  | (some us, s) =>
    if x.retired then (s.modTag x.ni x.tag gone).modNi x.ni (fun c => { c with late := satInc c.late })
    else
      let s := s.freeTag x.ni x.tag
      let r : Response := match r with
        | .rdata _ => .rdata us
        | r => r
      use us { s with net := { s.net with arrived := s.net.arrived.set x.ni (some (x.tag, r)) } }

/-- RDATA (R238): the units go to the requester with their poison; a poisoned word raises NIECC on the instruction. -/
def execRdata (n : NiId) (tag : BitVec 6) (d : Damage) (s : State) : Out :=
  match s.findTag n tag with
  | some x =>
    match x.resp with
    | some (.rdata us) =>
      if s.mayDeliver x then
        .next (s.respond x d (.rdata us) (fun us s =>
          if (us.getD x.req.wanted (0, false)).2 then s.toRequester x.req.purpose causeNiecc else s))
      else .next s
    | _ => .next s
  | none => .next s

/-- ACK (R232): the write is acknowledged and its tag is free. -/
def execAck (n : NiId) (tag : BitVec 6) (d : Damage) (s : State) : Out :=
  match s.findTag n tag with
  | some x =>
    match x.resp with
    | some .ack => if s.mayDeliver x then .next (s.respond x d .ack (fun _ s => s)) else .next s
    | _ => .next s
  | none => .next s

/-- ERR (R238, R257): codes 01h and 03h raise NIECC in the requester. -/
def execErr (n : NiId) (tag : BitVec 6) (d : Damage) (s : State) : Out :=
  match s.findTag n tag with
  | some x =>
    match x.resp with
    | some (.err c) =>
      if s.mayDeliver x then
        .next (s.respond x d (.err c) (fun _ s => if c = 1 ∨ c = 3 then s.toRequester x.req.purpose causeNiecc else s))
      else .next s
    | _ => .next s
  | none => .next s

/-! ### Snoops (R239) -/

/-- A unit's cached lines of a block leave its cache, and a fill of the block that is on its way will not be kept. -/
def HUnit.dropBlock (u : HUnit) (block : Nat) : HUnit :=
  { u with icache := u.icache.filter (fun l => decide (l / 256 ≠ block)),
           ifill := u.ifill.map (fun f => if f.block = block then { f with keep := false } else f) }

/-- SNPINV: an H unit invalidates its lines of the block, and the NI is ready to answer. Log 122, DEDUCED. -/
def execSnpinv (n : NiId) (block : BitVec 11) (s : State) : Out :=
  if s.net.snooping.any (fun e => decide (e = (block.toNat, n, false))) then
    let s := { s with net := { s.net with snooping := s.net.snooping.map (fun e =>
      if e = (block.toNat, n, false) then (block.toNat, n, true) else e) } }
    .next (if n.val < 4 then s.modUnit (Fin.ofNat 4 n.val) (fun u => u.dropBlock block.toNat) else s)
  else .next s

/-- A write whose ACK waited is acknowledged, unless another block of it still waits. -/
def State.releaseAck (s : State) (n : NiId) (f : AckFor) : State :=
  if s.net.heldAck.any (fun e => decide (e.2.1 = n) && decide (e.2.2 = f)) then s
  else
    match f with
    | .tag t => s.answer n t .ack

/-- Every write that waited on the block's snoops. -/
def State.releaseBlock (s : State) (block : Nat) : State :=
  let mine := s.net.heldAck.filter (fun e => decide (e.1 = block))
  let rest := s.net.heldAck.filter (fun e => decide (e.1 ≠ block))
  mine.foldl (fun s e => s.releaseAck e.2.1 e.2.2) { s with net := { s.net with heldAck := rest } }

/-- SNPACK: after the last, the writes of the block are acknowledged. -/
def execSnpack (n : NiId) (block : BitVec 11) (s : State) : Out :=
  if s.net.snooping.any (fun e => decide (e = (block.toNat, n, true))) then
    let left := s.net.snooping.filter (fun e => decide (e ≠ (block.toNat, n, true)))
    let s := { s with net := { s.net with snooping := left } }
    .next (if left.any (fun e => decide (e.1 = block.toNat)) then s else s.releaseBlock block.toNat)
  else .next s

/-! ### Timeouts and flushes -/

/-- A packet that found a zero share ends with its request (R269). -/
def State.endZero (s : State) (x : Tag) : State :=
  (s.net.waits.filter (fun p => decide (p.stage = .mesh) && decide (p.req.src = x.ni) && decide (p.req.tag = x.tag) && !p.posted
    && s.zeroShare p.req.qc p.req.phys)).foldl (fun s p => (s.unwait p).outDown p) s

/-- What the requester sees of a timeout (Table TR-7, R283). -/
def State.timedOut (s : State) (x : Tag) : State :=
  match x.req.purpose with
  | .outlet _ => s
  | .system => s.countFault 0x70 x.ni.val
  | .post r _ =>
    (s.modRegion r (fun y => { y with pdrop := satInc y.pdrop, unack := if x.own then y.unack - 1 else y.unack })).toRequester
      x.req.purpose causeNitmo
  | p =>
    let s := if x.own ∧ x.ni.val < 4 then s.modUnit (Fin.ofNat 4 x.ni.val) (fun u => u.dropFill x.tag) else s
    s.toRequester p causeNitmo

/-- NI_TIMEOUT (R241, R242): the tag retires; an arrival that becomes visible in the same cycle wins, and is counted.
Log 120, DEDUCED. -/
def execNiTimeout (n : NiId) (tag : BitVec 6) (near : Bool) (s : State) : Out :=
  match s.findTag n tag with
  | some x =>
    if x.retired = true ∨ s.passed x.at_ (s.timeoutOf x) = false then .next s
    else if near = true ∧ x.resp.isSome = true then .next (s.modNi n (fun c => { c with near := satInc c.near }))
    else .next ((((s.retire n tag).modNi n (fun c => { c with tmo := satInc c.tmo })).endZero x).timedOut x)
  | none => .next s

/-- TAG_RELEASE (R241): one further timeout period after it retired, the tag may be used again. -/
def execTagRelease (n : NiId) (tag : BitVec 6) (s : State) : Out :=
  match s.findTag n tag with
  | some x => .next (if x.retired = true ∧ s.passed x.at_ (s.timeoutOf x) = true then s.freeTag n tag else s)
  | none => .next s

/-- A tag of a flushed transaction (R243): traffic with QC 0 is never flushed. -/
def State.flushes (s : State) (n : NiId) (x : Tag) : Bool :=
  decide (x.ni = n) && s.net.flushing[n].getLsbD x.req.ten.val && decide (x.req.qc ≠ 0)

/-- FLUSH_COMPLETE (R243), once every producer has reached its LAST unit: the flushed transactions' responses are discarded, their tags
retire, and NICNT counts. -/
def execFlushComplete (n : NiId) (s : State) : Out :=
  if s.net.flushing[n] = 0 ∨ s.net.draining[n] ≠ 0 then .next s
  else
    let tags := s.net.tags.map (fun (x : Tag) =>
      if s.flushes n x then { x with retired := true, at_ := s.now, resp := none } else x)
    let s := { s with net := { s.net with tags := tags, flushing := s.net.flushing.set n 0 } }
    .next (s.modNi n (fun c => { c with flush := satInc c.flush }))

/-! ### Clock crossings (R240) -/

/-- The NIs whose side clock is not CK_N (Table TR-6). -/
def crossesClocks (n : NiId) : Bool :=
  decide (n.val < 8) || [0x0d, 0x0e, 0x0f, 0x10, 0x14, 0x16].contains n.val

/-- The units in the FIFO of eight from the side of NI `n` to the network: the first of the packets that stand there (R240). -/
def State.sideFifo (s : State) (n : NiId) : List LinkUnit :=
  if crossesClocks n then
    (((s.net.waits.filter (fun p => p.unsent && decide (p.req.src = n))).map (fun p =>
      linkUnits (p.req.header p.cmd (s.routeTo n p.req.dest).hops) (p.units.map (fun u => (u, p.bad))))).flatten).take 8
  else []

/-- The units in the FIFO of eight from the network to the side of NI `n`: the first of the response that came last (R240). How soon the
side takes them is timing (log 149, DESIGN CHOICE). -/
def State.netFifo (s : State) (n : NiId) : List LinkUnit :=
  if crossesClocks n then
    match s.net.arrived[n] with
    | some (tag, r) =>
      let q : Req :=
        { src := n, dest := n, ten := 0, qc := 0, tag := tag, len := 0, addr := 0, purpose := .system, damage := [], ecc := [] }
      (responseUnits q 0 r).take 8
    | none => []
  else []

/-- The level of the expiry of NI `n`'s timers toward its side: a retired tag that is not yet free again (R240, R241). -/
def State.expiryLevel (s : State) (n : NiId) : Bool := s.net.tags.any (fun x => decide (x.ni = n) && x.retired)

/-! ### A tick of the network and the banks: log 131, DESIGN CHOICE -/

/-- The packets of NI `n` that wait there leave in order, as far as they may (R265). -/
def State.releaseNi (s : State) (n : NiId) : State :=
  (s.net.waits.filter (fun p => p.unsent && decide (p.req.src = n))).foldl (fun s p =>
    if s.mayInject p then ((s.unwait p).launchAny p) else s) s

/-- The input port of a destination's router through which a packet comes (R236): 0 to 3 for the mesh ports, 4 for a local one. -/
def State.inputPort (s : State) (p : Packet) : Nat :=
  match (s.pathTo p.req.src p.req.dest).reverse with
  | r :: q :: _ =>
    if q.val + 4 = r.val then 0 else if r.val + 1 = q.val then 1 else if r.val + 4 = q.val then 2 else 3
  | _ => 4

/-- The packet may enter its queue now: it has found a share, an entry is open, and it is the first of its NI on its VN. -/
def State.mayEnter (s : State) (p : Packet) : Bool :=
  decide (p.stage = .mesh) && !s.zeroShare p.req.qc p.req.phys && s.entryOpen p.req.qc p.req.phys
  && !((s.net.waits.takeWhile (fun x => decide (x ≠ p))).any (fun x =>
    decide (x.stage = .mesh) && decide (x.req.src = p.req.src) && decide (x.req.dest = p.req.dest)
      && !s.zeroShare x.req.qc x.req.phys && decide (vnOf x.cmd x.req.qc = vnOf p.cmd p.req.qc)))

/-- Packet `a` goes before packet `b` at the destination's port: by rank, then in turn over the input ports (R236, R268). -/
def State.entersFirst (s : State) (a b : Packet) : Bool :=
  let t := s.net.turn[a.req.dest]
  let ra := s.rank a.req.qc a.group
  let rb := s.rank b.req.qc b.group
  decide (rb < ra) || (decide (ra = rb) && decide ((s.inputPort a + 4 - t) % 5 < (s.inputPort b + 4 - t) % 5))

/-- The better of two, the first where neither goes before the other. -/
def betterOf {α : Type} (before : α → α → Bool) (best : Option α) (x : α) : Option α :=
  match best with
  | none => some x
  | some b => if before x b then some x else some b

/-- A packet that has waited under credit enters its queue: the units waited at the router before it (RTBLK). -/
def State.enter (s : State) (p : Packet) : State :=
  let s := (s.unwait p).modRouter niPlace[p.req.dest].1 (fun x => { x with blk := satAdd x.blk (s.cycle - p.since) })
  let s := { s with net := { s.net with turn := s.net.turn.set p.req.dest (s.inputPort p) } }
  let s := s.touchBank p.req.phys
  { s with net := { s.net with waits := s.net.waits ++ [{ p with stage := .queued, since := s.cycle }] } }

/-- The next packet for destination `e` enters its queue, if one may. -/
def State.admitOne (s : State) (e : NiId) : State :=
  match (s.net.waits.filter (fun p => decide (p.req.dest = e) && s.mayEnter p)).foldl (betterOf (fun a b => s.entersFirst a b)) none with
  | some p => s.enter p
  | none => s

def State.admitUpTo (s : State) (e : NiId) : Nat → State
  | 0 => s
  | k + 1 => (s.admitOne e).admitUpTo e k

/-- R247's order for one bank: rank, then the earlier header, then the lower SRC. -/
def State.bankFirst (s : State) (a b : Packet) : Bool :=
  let ra := s.rank a.req.qc a.group
  let rb := s.rank b.req.qc b.group
  decide (rb < ra) || (decide (ra = rb) && (decide (a.since < b.since)
    || (decide (a.since = b.since) && decide (a.req.src.val < b.req.src.val))))

/-- R272's order among in-budget classes: the least S(q) / budget, the lower class among equals, and a class's earliest packet. -/
def State.shareFirst (s : State) (g : Group) (a b : Packet) : Bool :=
  let ca := s.cls a.req.qc
  let cb := s.cls b.req.qc
  let x := ca.sfServed[g] * cb.recd.budget[g]
  let y := cb.sfServed[g] * ca.recd.budget[g]
  decide (x < y) || (decide (x = y) && (decide (a.req.qc < b.req.qc)
    || (decide (a.req.qc = b.req.qc) && (decide (a.since < b.since)
      || (decide (a.since = b.since) && decide (a.req.src.val < b.req.src.val))))))

/-- The packet that a bank takes next of those queued for it (R247, and R272 while SHORTFALL holds at its group). -/
def State.pick (s : State) (l : List Packet) (g : Option Group) : Option Packet :=
  let all := l.foldl (betterOf (fun a b => s.bankFirst a b)) none
  match g with
  | some g =>
    if s.weir.sf.getLsbD g.val && l.all (fun p => decide (p.req.qc ≠ 0)) then
      match l.filter (fun p => !(s.cls p.req.qc).overBudget g) with
      | [] => all
      | m => m.foldl (betterOf (fun a b => s.shareFirst g a b)) none
    else all
  | none => all

/-- The packets queued for a port of a bank. -/
def State.queuedAt (s : State) (b : BankId) (portB : Bool) : List Packet :=
  s.net.waits.filter (fun p => decide (p.stage = .queued) && decide (p.req.phys.bank = b) && decide (p.req.portB = portB))

/-- One port of a bank in cycle `c`: free and in service, it begins its next packet; a bank offline answers ERR 03h (R257). -/
def State.servePort (s : State) (b : BankId) (portB : Bool) (c : Nat) : State :=
  let l := s.queuedAt b portB
  if (s.bank b).state = .offline then l.foldl (fun s p => ((s.unwait p).outDown p).refusePacket p 3) s
  else if (s.bank b).state = .active ∧ ((s.bank b).port portB).free ≤ c then
    match s.pick l (bankGroup b) with
    | some p => ((s.unwait p).outDown p).perform p c
    | none => s
  else s

/-- Every bank in cycle `c`. -/
def State.serveCycle (s : State) (c : Nat) : State :=
  (List.finRange 20).foldl (fun s b => (s.servePort b false c).servePort b true c) s

/-- Class `q` is in budget at `g` with every entry of its share there occupied (R271). -/
def State.shareFull (s : State) (g : Group) (q : BitVec 4) : Bool :=
  let c := s.cls q
  decide (q ≠ 0) && c.recd.owner.isSome && !c.overBudget g && decide (0 < c.recd.share[g])
    && decide (c.recd.share[g] ≤ s.entries q g)

/-- The share-full watch of R271: the cycle since which the condition has held at each group. -/
def State.watchShares (s : State) : State :=
  { s with weir := { s.weir with fullAt := Vector.ofFn (fun g =>
      if allClasses.any (fun q => s.shareFull g q) then some (s.weir.fullAt[g].getD s.cycle) else none) } }

/-- The time for which requests are held at the cap (WQOUT): 8 ns more for each class that has one at its NI. Log 82, DESIGN CHOICE. -/
def State.countHeld (s : State) : State :=
  { s with weir := { s.weir with classes := s.weir.classes.mapFinIdx (fun i c _ =>
      if s.net.waits.any (fun p => p.unsent && decide (p.req.qc.toNat = i) && s.capped p) then { c with heldNs := c.heldNs + 8 } else c) } }

/-- A posted packet of a class without a share ends after its NI's timeout (R269; log 131, DESIGN CHOICE). -/
def State.endPosted (s : State) : State :=
  (s.net.waits.filter (fun p => p.posted && decide (p.stage = .mesh) && s.zeroShare p.req.qc p.req.phys
    && decide (p.since + cyclesOf (s.tmoNs p.req.src p.req.dest) ≤ s.cycle))).foldl (fun s p => (s.unwait p).outDown p) s

/-- Producers of flushed packets write on into discard (R243): three units in a tick. -/
def State.drainDiscard (s : State) : State :=
  { s with net := { s.net with draining := s.net.draining.map (fun n => n - 3) } }

/-- The packets that wait move on: from their NIs, into their queues, and to the banks in each cycle of the tick. -/
def State.movePackets (s : State) : State :=
  let s := (List.finRange 24).foldl (fun s n => s.releaseNi n) s
  let s := [8, 9, 10, 11, 12].foldl (fun s (e : NiId) => s.admitUpTo e 4) s
  let first := cyclesOf (s.now - 8) + 1
  let s := (List.range (s.cycle + 1 - first)).foldl (fun s i => s.serveCycle (first + i)) s
  s.countHeld.endPosted

/-- The Pool groups that have still to follow a parked array into retention and whose queue is empty now. -/
def State.followPark (s : State) : State :=
  (allGroups.filter (fun g => s.modes.follow.getLsbD g.val && !s.queueHolds g)).foldl (fun s g => s.retainGroup g) s

/-- What the network and the banks do in the tick that has brought the time to now. -/
def State.pump (s : State) : State :=
  let s := (if s.net.waits.isEmpty then s else s.movePackets).followPark
  s.watchShares.drainDiscard

end Sys2Proof.Machine
end

