-- ==== Sys2Proof/Machine/Pool.lean ====
section
/-! DEFINITION. The scrubbers of Pool and Eddy (R255 to R257). -/

namespace Sys2Proof.Machine

/-- The units of a bank (Table PL-1). -/
def bankUnits (b : BankId) : Nat := if b.val < 16 then 65536 else 8192

/-- A unit of a bank as a physical place. -/
def bankPlace (b : BankId) (unit : Nat) : Phys :=
  if b.val < 16 then { eddy := false, word := 2 * (65536 * b.val + unit) }
  else { eddy := true, word := 2 * (8192 * (b.val - 16) + unit) }

/-- One unit every 61 035 CK_N cycles of 2.5 ns, in ns. Log 117, DEDUCED. -/
def scrubPeriod : Nat := 152588

/-- The bank's next scrub read: the position moves on, and a pass that is complete counts. -/
def Bank.scrubOn (x : Bank) (units : Nat) : Bank :=
  let wrap := decide (units ≤ x.scrub.toNat + 1)
  { x with
    scrub := if wrap then 0 else x.scrub + 1, passes := if wrap then x.passes + 1 else x.passes,
    scrubAt := x.scrubAt + scrubPeriod }

/-- A scrub read of the unit that is next, by port A in cycle `c` (R250, R255, R256): where port B writes the unit in that cycle, it
checks the unit as it stood and writes nothing back (Edges of 14). -/
def State.scrub (s : State) (b : BankId) (c : Nat) (e : Ecc) : State :=
  let p := bankPlace b (s.bank b).scrub.toNat
  let old := (s.touched p false c).filter (·.write)
  let s := (((s.holdPort p false c 1).touch p false c false).countRead p 1).meetEcc p (if old.isSome then .clean else e)
  let bad := match old with
    | some x => x.old.2
    | none => s.poisoned p
  let s := s.modBank b (fun x => x.scrubOn (bankUnits b))
  if bad then s.uncError b p.bankUnit true else s

/-- The bank serves, and a scrub read has been due for `ns`. -/
def State.scrubDue (s : State) (b : BankId) (ns : Nat) : Bool :=
  s.dieOn && decide ((s.bank b).state = .active) && s.passed (s.bank b).scrubAt ns

/-- SCRUB_READ (R256): the read takes an idle cycle. -/
def execScrubRead (k : BankId) (ecc : Ecc) (s : State) : Out :=
  .next (if s.scrubDue k 0 && decide ((s.bank k).portA.free ≤ s.cycle) then s.scrub k s.cycle ecc else s)

/-- FORCED_SCRUB (R256): 1 024 cycles after it fell due, the read takes the bank's next cycle ahead of every queued packet; PBFRC counts
it, and the group has lost a bank cycle (R274). -/
def execForcedScrub (k : BankId) (ecc : Ecc) (s : State) : Out :=
  if s.scrubDue k 2560 then
    let s := (s.scrub k (Nat.max s.cycle (s.bank k).portA.free) ecc).modBank k (fun x => { x with frc := satInc x.frc })
    .next (if k.val < 16 then s.loseCycles (Fin.ofNat 4 (k.val / 4)) 1 else s)
  else .next s

end Sys2Proof.Machine
end

