-- ==== Sys2Proof/Machine/Twin.lean ====
section
/-! DEFINITION. TWIN (R332, R333): two nodes that use one address, found by a frame of the node's own address or by a
TWIN. -/

namespace Sys2Proof.Machine

/-- The address form a yielding node takes (R332); two nodes in form C never meet. -/
def AddrForm.yield : AddrForm → AddrForm
  | .s => .a
  | .a => .b
  | .b => .c
  | .c => .c

/-- The TWIN body (R333). -/
def twinBody (contested : BitVec 48) (yielded : Bool) (serial : BitVec 64) : List Byte :=
  bytesBE contested.toNat 6 ++ [if yielded then 1 else 0, 0] ++ bytesBE serial.toNat 8

/-- The higher serial yields: a new address, no buddies, and no VIGIL held for one; the permit profile stays. -/
def State.yieldAddress (s : State) : State :=
  ({ s with
      ring := { s.ring with form := s.ring.form.yield },
      mill := { s.mill with
        buddies := [], map := s.mill.map.map (fun (m : RingMap) => { m with lost := false, present := false }) } }).settleVigil

/-- RMSTAT's mark on the node's own index (Table MR-10). -/
def State.markTwin (s : State) : State :=
  match s.code.latched.s with
  | some b => if s.bySerial then s else s.modSocket b (fun m => { m with twin := true })
  | none => s

/-- The comparison with a twin of the given serial (R332). One TWIN goes out per serial and run; a node that keeps its
address makes no second comparison with it. Before the first house verdict the node sends no TWIN and leaves the conflict
to a later frame (R52, R312). Log 100, DEDUCED. -/
def State.meetTwin (s : State) (serial : BitVec 64) : State :=
  let contested := s.address
  let yields := decide (serial < Config.deviceSerial)
  let again := s.mill.twins.contains serial
  if !s.speaks || decide (serial = Config.deviceSerial) || (again && !yields) then s
  else
    let s := s.markTwin
    let s := if yields then s.yieldAddress else s
    let body := twinBody contested yields serial
    let s := if again then s
      else ({ s with mill := { s.mill with twins := s.mill.twins ++ [serial] } }).sendMillrace nodeGroup 0x0a 0 body
    s.formSystem 0xf6 (sysEntry 0x0014 body)

/-- A TWIN: one that names the node's current address comes from its twin, whose serial the common header holds. -/
def State.onTwin (s : State) (m : Message) : State :=
  if fieldBE m.body 0 6 = s.address.toNat then s.meetTwin m.serial else s

def execTwin (m : Message) (s : State) : Out := .next (s.take m 0x0a (fun s => s.onTwin m))

end Sys2Proof.Machine
end

