-- ==== Sys2Proof/Machine/Ring.lean ====
section
/-! DEFINITION. The ring link (R290 to R301, R303): ports, the disposition of a frame by Table LN-2, the transparent
clock, the egress queues, and supervision. Frames that leave are recorded in `wire` (log 4, DESIGN CHOICE). -/

namespace Sys2Proof

/-! ### Frames and the PTP fields of a payload (Table LN-3) -/

/-- Bytes of a frame from its destination address to its FCS: addresses, HSR tag, payload EtherType and FCS. -/
def Frame.size (f : Frame) : Nat := 24 + f.payload.length

def ptpSync : Nat := 0
def ptpDelayReq : Nat := 1
def ptpFollowUp : Nat := 8

/-- The message type of a PTP frame that is long enough for the common header. -/
def Frame.ptpType (f : Frame) : Option Nat :=
  if f.etherType = Machine.etPtp ∧ 34 ≤ f.payload.length then some ((byteAt f.payload 0).toNat % 16) else none

/-- A two-step Sync. -/
def Frame.twoStep (f : Frame) : Bool := decide (f.ptpType = some ptpSync) && (byteAt f.payload 6).getLsbD 1

/-- Source port identity and sequenceId. -/
def Frame.ptpKey (f : Frame) : BitVec 96 := BitVec.ofNat 96 (fieldBE f.payload 20 12)

/-- Frames of the first queue. -/
def Frame.isEvent (f : Frame) : Bool := decide (f.ptpType = some ptpSync) || decide (f.ptpType = some ptpDelayReq)

def Frame.group (f : Frame) : Bool := f.dst.getLsbD 40

end Sys2Proof

namespace Sys2Proof.Machine

/-! ### Times of Table LN-1 and R297 -/

def forgetPair : Nat := 400 * ms
def forgetNode : Nat := 60 * sec
def pairEntries : Nat := 512
def nodeEntries : Nat := 80
def relayBytes : Nat := 16384

/-- The node sent the pair itself within 400 ms (Table LN-2, row 1). -/
def State.sentPair (s : State) (f : Frame) : Bool :=
  s.ring.sentOwn.any (fun e => decide (e.1 = f.src) && decide (e.2.1 = f.seq) && decide (s.now < e.2.2 + forgetPair))

/-- Whether a queued frame is the node's own. -/
def State.isOwn (s : State) (f : Frame) : Bool :=
  s.ring.sentOwn.any (fun e => decide (e.1 = f.src) && decide (e.2.1 = f.seq))

/-- The instant at which a known pair was marked (R295). -/
def State.knownAt (s : State) (f : Frame) : Option Nat :=
  (s.ring.known.find? (fun e => decide (e.1 = f.src) && decide (e.2.1 = f.seq) && decide (s.now < e.2.2 + forgetPair))).map
    (·.2.2)

/-- Mark a pair known; the oldest of 512 gives way. -/
def State.markPair (s : State) (f : Frame) : State :=
  let l := s.ring.known.filter (fun e => !(decide (e.1 = f.src) && decide (e.2.1 = f.seq)))
  let l := if pairEntries ≤ l.length then l.drop 1 else l
  { s with ring := { s.ring with known := l ++ [(f.src, f.seq, s.now)] } }

/-- The payload with `res` nanoseconds added to the correctionField, which counts in 1/65 536 ns. -/
def addCorrection (b : List Byte) (res : Nat) : List Byte :=
  b.take 8 ++ bytesBE ((fieldBE b 8 8 + res * 65536) % 2 ^ 64) 8 ++ b.drop 16

/-! ### Forwarding (R296, R297, R303) -/

/-- Queue a relayed frame at egress port `q`; one that finds no room is discarded and counted (R297). -/
def State.queueRelay (s : State) (q : Port) (f : Frame) : State :=
  let used := ((s.port q).qRelay.filter (fun g => !s.isOwn g)).foldl (fun n g => n + g.size) 0
  if f.isEvent then s.modPort q (fun x => { x with qEvent := x.qEvent ++ [f] })
  else if used + f.size ≤ relayBytes then s.modPort q (fun x => { x with qRelay := x.qRelay ++ [f] })
  else s.modPort q (fun x => { x with qdrop := satInc x.qdrop })

/-- The largest residence toward a port (LPRESMX). -/
def PortSt.residence (x : PortSt) (res : Nat) : PortSt :=
  if x.resmx.toNat < res then { x with resmx := BitVec.ofNat 24 (Nat.min res 0xffffff) } else x

/-- The residence of the Sync that a Follow_Up belongs to, if it was relayed from the same ingress within 1 s. -/
def State.syncResidence (s : State) (p : Port) (f : Frame) : Option Nat :=
  (s.ring.resid.find? (fun e => decide (e.1 = p) && decide (e.2.1 = f.ptpKey) && decide (s.now ≤ e.2.2.2 + sec))).map
    (·.2.2.1)

/-- The transparent clock on a frame that passes from `p` to the other port with residence `res` (R303). -/
def State.correct (s : State) (p : Port) (f : Frame) (res : Nat) : State × Frame :=
  match f.ptpType with
  | some 0 =>
    if f.twoStep then
      let keep := s.ring.resid.filter (fun e =>
        decide (s.now ≤ e.2.2.2 + sec) && !(decide (e.1 = p) && decide (e.2.1 = f.ptpKey)))
      (({ s with ring := { s.ring with resid := keep ++ [(p, f.ptpKey, res, s.now)] } }).modPort (otherPort p)
        (fun x => x.residence res), f)
    else (s, f)
  | some 1 => (s.modPort (otherPort p) (fun x => x.residence res), { f with payload := addCorrection f.payload res })
  | some 8 =>
    match s.syncResidence p f with
    | some r =>
      let keep := s.ring.resid.filter (fun e => !(decide (e.1 = p) && decide (e.2.1 = f.ptpKey)))
      ({ s with ring := { s.ring with resid := keep } }, { f with payload := addCorrection f.payload r })
    | none => ({ s with ptp := { s.ptp with orph := satInc s.ptp.orph } }, f)
  | _ => (s, f)

/-- Forward a frame from port `p` to the other port, if that one relays. -/
def State.relay (s : State) (p : Port) (f : Frame) (res : Nat) : State :=
  let q := s.port (otherPort p)
  if q.state = .up ∧ q.relaying = true then
    let r := s.correct p f res
    r.1.queueRelay (otherPort p) r.2
  else s

/-! ### Disposition (Table LN-2) -/

/-- The groups that the node takes (row 5; R311). -/
def takesGroup (d : BitVec 48) : Bool := [nodeGroup, ptpGroup, supervisionGroup].contains d

/-- A supervision frame taken: counted, and its sender's entry refreshed (R298). A full table takes no new entry
(log 71, DESIGN CHOICE). Log 96, DEDUCED. -/
def State.supervised (s : State) (p : Port) (f : Frame) : State :=
  let s := s.modPort p (fun x => { x with supv := satInc x.supv })
  let others := s.ring.nodes.filter (fun e => decide (e.1 ≠ f.src))
  if others.length < nodeEntries then { s with ring := { s.ring with nodes := others ++ [(f.src, p, s.now)] } } else s

/-- A Millrace frame of a type that no row of Table MR-2 has a node take: one not listed, or one that nodes send to the keeper. -/
def notTaken (f : Frame) : Bool :=
  decide (f.etherType = etMillrace) && !([1, 3, 5, 6, 7, 8, 9, 0x0a, 0x0b].contains (byteAt f.payload 1).toNat)

/-- A frame that rows 4 and 5 consume: what the main die cannot take is counted and discarded (R299), and a Millrace frame of no type
that the node takes counts in RMBAD (R311). The message of another Millrace or PTP frame acts by its own command (log 72, DESIGN
CHOICE). -/
def State.consume (s : State) (p : Port) (f : Frame) : State :=
  if !s.consumes then s.modPort p (fun x => { x with unread := satInc x.unread })
  else if f.dst = supervisionGroup ∧ f.etherType = etSupervision then s.supervised p f
  else if notTaken f then { s with mill := { s.mill with bad := satInc s.mill.bad } }
  else s

/-- Row 1: the node's own address as source. A Millrace frame that it has not sent within 400 ms, with another serial, comes
from a twin (R332). -/
def State.ownSource (s : State) (p : Port) (f : Frame) : State :=
  let s := s.modPort p (fun x => { x with own := satInc x.own })
  if !s.sentPair f && decide (f.etherType = etMillrace) && decide (16 ≤ f.payload.length) then
    s.meetTwin (BitVec.ofNat 64 (fieldBE f.payload 8 8))
  else s

/-- Row 3: a known pair. When the other copy arrived at the same instant, that one does not leave either: the two meet at
this node (Edges of 17). Log 97, DEDUCED. -/
def State.knownPair (s : State) (p : Port) (f : Frame) (at_ : Nat) : State :=
  let s := s.modPort p (fun x => { x with dup := satInc x.dup })
  if at_ = s.now then
    s.modPort p (fun x => { x with qRelay := x.qRelay.filter (fun g => !(decide (g.src = f.src) && decide (g.seq = f.seq))) })
  else s

/-- Rows 4 to 6, which mark the pair known. -/
def State.newPair (s : State) (p : Port) (f : Frame) (res : Nat) : State :=
  let s := s.markPair f
  if f.dst = s.address then s.consume p f
  else if f.group then
    let s := s.relay p f res
    if takesGroup f.dst then s.consume p f else s
  else s.relay p f res

/-- A frame received intact, by the rows of Table LN-2 in their order (R295). -/
def State.dispose (s : State) (p : Port) (f : Frame) (res : Nat) : State :=
  if f.src = s.address then s.ownSource p f
  else if f.etherType = etPtp then s.relay p f res
  else
    match s.knownAt f with
    | some a => s.knownPair p f a
    | none => s.newPair p f res

/-- A frame whose FCS fails at its end: it has been sent on where the rows forward it, its copy ends with an invalid FCS, and
it is never consumed (R296). Log 95, DEDUCED. -/
def State.disposeBad (s : State) (p : Port) (f : Frame) (res : Nat) : State :=
  let s := s.modPort p (fun x => { x with rxe := satInc x.rxe })
  if decide (f.src = s.address) || (decide (f.etherType ≠ etPtp) && ((s.knownAt f).isSome || decide (f.dst = s.address))) then s
  else s.relay p { f with invalid := true } res

/-- A frame at port `p`: before the port relays it is discarded and counted (R292); an untagged frame and one of the wrong
LSDU size are counted (Table LN-1). -/
def State.arrive (s : State) (p : Port) (f : FrameIn) (res : Nat) : State :=
  let x := s.port p
  if s.power.powered = false ∨ x.state ≠ .up then s
  else
    let s := s.modPort p (fun x => { x with rxf := x.rxf + 1 })
    if x.relaying = false then s.modPort p (fun x => { x with early := satInc x.early })
    else if f.tagged = false then s.modPort p (fun x => { x with untag := satInc x.untag })
    else if f.lsduOk = false then s.modPort p (fun x => { x with rxe := satInc x.rxe })
    else if f.fcsOk = false ∨ f.frame.invalid = true then s.disposeBad p f.frame res
    else s.dispose p f.frame res

/-- HSR_FRAME (R295). The residence of a relayed Sync is a free value (log 73, DESIGN CHOICE). -/
def execHsrFrame (p : Port) (f : FrameIn) (s : State) : Out :=
  let (n, s) := s.takeFree
  .next (s.arrive p f (Config.freeNat n 2))

/-- FOLLOW_UP (R303): a Follow_Up takes its Sync's residence on its way, or passes unchanged as an orphan. -/
def execFollowUp (p : Port) (f : FrameIn) (s : State) : Out :=
  if f.frame.ptpType = some ptpFollowUp then .next (s.arrive p f 0) else .next s

/-- DELAY_REQ (R303): a relayed Delay_Req leaves with its residence added. -/
def execDelayReq (p : Port) (f : FrameIn) (residence : Nat) (s : State) : Out :=
  if f.frame.ptpType = some ptpDelayReq then .next (s.arrive p f residence) else .next s

/-- SUPERVISION_FRAME (R298). -/
def execSupervisionFrame (p : Port) (f : FrameIn) (s : State) : Out :=
  if f.frame.dst = supervisionGroup ∧ f.frame.etherType = etSupervision then .next (s.arrive p f 0) else .next s

/-- SUPERVISION_SEND (R298): version 1 and one TLV of type 23 with the node's address, every 2 s. The frame's own sequence
number is a free value (log 74, PRESUMED). -/
def execSupervisionSend (s : State) : Out :=
  if s.speaks = true ∧ s.passed s.ring.supvAt (2 * sec) = true then
    let (n, s) := s.takeFree
    let body := bytesBE 1 2 ++ bytesBE (Config.freeNat n 3) 2 ++ [23, 6] ++ bytesBE s.address.toNat 6
    let s := { s with ring := { s.ring with supvAt := s.now } }
    .next (s.sendOwn supervisionGroup etSupervision body false)
  else .next s

/-! ### Forgetting and promotion -/

/-- DUPLICATE_ENTRY_FORGET (R294): entries of 400 ms and more go, those of own pairs too. -/
def execDuplicateEntryForget (s : State) : Out :=
  let fresh (e : BitVec 48 × BitVec 16 × Nat) : Bool := decide (s.now < e.2.2 + forgetPair)
  .next { s with ring := { s.ring with
    known := s.ring.known.filter fresh,
    sentOwn := s.ring.sentOwn.filter (fun e => fresh e
      || [s.ring.portA, s.ring.portB].any (fun x =>
        (x.qEvent ++ x.qRelay ++ x.qOwn.map (·.2)).any (fun g => decide (g.src = e.1) && decide (g.seq = e.2.1)))) } }

/-- NODE_TABLE_FORGET (R294): entries not refreshed within 60 s go. -/
def execNodeTableForget (s : State) : Out :=
  .next { s with ring := { s.ring with nodes := s.ring.nodes.filter (fun e => decide (s.now < e.2.2 + forgetNode)) } }

/-- OWN_FRAME_PROMOTION (R297): own frames that have waited 4 ms stand ahead of relayed frames, behind those promoted before. -/
def execOwnFramePromotion (p : Port) (s : State) : Out :=
  let x := s.port p
  let late := x.qOwn.filter (fun e => s.passed e.1 (4 * ms))
  let ahead := x.qRelay.takeWhile (fun g => s.isOwn g)
  .next (s.modPort p (fun x => { x with
    qRelay := ahead ++ late.map (·.2) ++ x.qRelay.dropWhile (fun g => s.isOwn g),
    qOwn := x.qOwn.filter (fun e => !s.passed e.1 (4 * ms)) }))

/-! ### Ports (R290, R292, R300, R350) -/

/-- A change of port state, with its instant (LPLAST). -/
def State.setPort (s : State) (p : Port) (st : PortState) : State :=
  s.modPort p (fun x => { x with state := st, last := s.ringMs })

/-- The PORT entry of an F5h finding (Table FL-5): port, LPSTAT [5:0] and ring time. -/
def State.portFinding (s : State) (p : Port) (st : PortState) : State :=
  let x := s.port p
  let code : Nat := match st with
    | .off => 0
    | .training => 1
    | .up => 2
    | .down => 3
  let f (i : Nat) (b : Bool) : Nat := if b then 2 ^ i else 0
  let v := code + f 2 x.amp24 + f 3 x.master + f 4 x.relaying + f 5 (decide (s.ptp.timePort = some p))
  let n : Nat := match p with
    | .a => 0
    | .b => 1
  s.formSystem 0xf5 (sysEntry 0x0013 ([BitVec.ofNat 8 n, BitVec.ofNat 8 v] ++ bytesBE s.ringUs 8))

/-- PORT_UP (R290, R292, R350): Training brings the port Up at the amplitude resolved. The port relays from then, once +150 ms
has passed. An Up after a loss is a link change and is reported (log 70, DEDUCED). Log 101, DEDUCED. -/
def execPortUp (p : Port) (amp24 master : Bool) (s : State) : Out :=
  let x := s.port p
  if s.power.powered = false ∨ x.state ≠ .training ∨ s.passed x.trainAt 0 = false ∨ (x.only24 = true ∧ amp24 = false) then .next s
  else
    let s := (s.setPort p .up).modPort p (fun x =>
      { x with
        amp24 := amp24, master := master, upc := satInc x.upc, only24 := false,
        relaying := x.relaying || s.passed s.ring.relayAt 0 })
    .next (if x.downc = 0 then s else s.portFinding p .up)

/-- RELAY_START (R292). -/
def execRelayStart (p : Port) (s : State) : Out :=
  if s.power.powered = true ∧ (s.port p).state = .up ∧ s.passed s.ring.relayAt 0 = true then
    .next (s.modPort p (fun x => { x with relaying := true }))
  else .next s

/-- A change of time port (R304): the exchanges of the old port are discarded, and four Delay_Req follow. -/
def State.changeTimePort (s : State) (p : Port) : State :=
  { s with ptp := { s.ptp with
      timePort := some p, delays := [], delayOk := false, switches := satInc s.ptp.switches, burst := 4,
      asked := 0 } }

/-- The Syncs that waited at port `p` are lost on that path (Edges of 17). -/
def State.dropSyncs (s : State) (p : Port) : State :=
  let keys := ((s.port p).qEvent.filter (fun f => f.twoStep)).map Frame.ptpKey
  let keep := s.ring.resid.filter (fun e => !(decide (e.1 = otherPort p) && keys.contains e.2.1))
  { s with ring := { s.ring with resid := keep } }

/-- The loss loop of R350: three losses at 1.0 Vpp within 600 s restrict the next training to 2.4 Vpp. -/
def PortSt.noteLoss (x : PortSt) (now : Nat) : PortSt :=
  if x.amp24 then x
  else
    let l := now :: x.losses.filter (fun i => decide (now < i + 600 * sec))
    { x with losses := l, only24 := decide (3 ≤ l.length) && decide (x.freeAt ≤ now) }

/-- LINK_LOSS (R300, R304, R350): Down is counted and reported, the frames at the port are lost, and Training begins. -/
def execLinkLoss (p : Port) (s : State) : Out :=
  if (s.port p).state ≠ .up then .next s
  else
    let s := ((s.setPort p .down).dropSyncs p).modPort p (fun x =>
      { x.noteLoss s.now with downc := satInc x.downc, qEvent := [], qRelay := [], qOwn := [] })
    let s := s.portFinding p .down
    let s := s.modPort p (fun x => { x with state := .training, trainAt := s.now })
    .next (if s.ptp.timePort = some p ∧ (s.port (otherPort p)).state = .up then s.changeTimePort (otherPort p) else s)

/-! ### Transmission -/

/-- The next frame of a port in the strict order of R297, and the port without it. -/
def PortSt.nextFrame (x : PortSt) : Option (Frame × PortSt) :=
  match x.qEvent, x.qRelay, x.qOwn with
  | f :: rest, _, _ => some (f, { x with qEvent := rest })
  | [], f :: rest, _ => some (f, { x with qRelay := rest })
  | [], [], (_, f) :: rest => some (f, { x with qOwn := rest })
  | [], [], [] => none

/-- Port `p` sends one frame (LPTXF, LPRLY). Log 99, DESIGN CHOICE. -/
def State.transmit (s : State) (p : Port) : State :=
  if (s.port p).state = .up then
    match (s.port p).nextFrame with
    | some (f, x) =>
      let own := s.isOwn f
      let s := s.modPort p (fun _ => { x with txf := x.txf + 1, rly := if own then x.rly else x.rly + 1 })
      { s with ring := { s.ring with wire := s.ring.wire ++ [(p, f)] } }
    | none => s
  else s

end Sys2Proof.Machine
end

