-- ==== Sys2Proof/Machine/Ptp.lean ====
section
/-! DEFINITION. Ring time (R302 to R308, R123): the keeper by the best master clock algorithm, the time port, the path delay,
and lock with its one step of SI and ring time. Between locks ring time runs at the nominal rate; the servo shows as its
trim alone, a free value within ±20 ppm (log 76, DESIGN CHOICE). -/

namespace Sys2Proof.Machine

/-! ### Lock states (Table LN-4) -/

/-- A signed number in 36 bits, saturating. -/
def sat36 (x : Int) : Word :=
  if x < -(2 ^ 35) then BitVec.ofInt 36 (-(2 ^ 35)) else if 2 ^ 35 ≤ x then BitVec.ofInt 36 (2 ^ 35 - 1) else BitVec.ofInt 36 x

/-- An SI change within the plane under fill of a source other than a channel (R123, R147); a channel's is marked at the border. -/
def Inlet.jump (i : Inlet) : Inlet :=
  if i.en && i.within && decide (12 ≤ i.src.toNat) then { i with cur := { i.cur with sijump := true } } else i

/-- Time at a sampling edge that is brought into line with ring time: the sample takes the index that ring time gives there, and its
period is stretched to the next edge in line (R123). -/
def Time.align (t : Time) (ofs : Int) : Time :=
  let offset := t.offset - ofs
  let at_ := ((t.mono : Int) + offset).toNat * 96 - t.siFrac
  { t with
    offset := offset, step := none, si := BitVec.ofNat 64 ((at_ + 15624) / 15625), stretch := (15625 - at_ % 15625) % 15625 }

/-- SI is set and ring time steps, once, in one cycle, at a frame boundary (R123, R308); requested windows are planned again
(R109). Log 112, DEDUCED. -/
def State.stepTime (s : State) (ofs : Int) : State :=
  let old := s.time.si
  let t := s.time.align ofs
  let s := { s with
    time := t,
    ct := { s.ct with
      changes := satInc s.ct.changes, step := sat36 ((t.si.toNat : Int) - old.toNat), unlocked := false,
      lanes := s.ct.lanes.map (fun (l : LaneState) => { l with jump := some (old, t.si) }) } }
  let s := { s with braid := { s.braid with strips := s.braid.strips.map (fun (x : StripState) => { x with inlet := x.inlet.jump }) } }
  s.planProof

/-- The step that waits is taken at a frame boundary. -/
def State.takeStep (s : State) : State :=
  match s.time.step with
  | some ofs => s.stepTime ofs
  | none => s

/-- Acquiring begins: the servo runs, and SI is set at the next frame boundary (Table LN-4, R123). -/
def State.acquire (s : State) (ofs : Int) : State :=
  { s with time := { s.time with step := some ofs }, ptp := { s.ptp with state := .acquiring, good := 0, bad := 0 } }

/-- Loss: back to Unlocked, and counted. -/
def State.loseLock (s : State) : State :=
  if s.ptp.state = .unlocked then s
  else { s with ptp := { s.ptp with state := .unlocked, losses := satInc s.ptp.losses, good := 0, bad := 0 } }

/-- The servo's trim, in hundredths of a ppm. -/
def State.trimServo (s : State) : State :=
  let (n, s) := s.takeFree
  { s with ct := { s.ct with trim := BitVec.ofInt 16 ((Config.freeNat n 4 % 4001 : Nat) - 2000) } }

/-- An offset of a time-port Sync on the lock states: 16 in a row within 200 ns lock, 4 in a row beyond 800 ns lose. -/
def State.servo (s : State) (ofs : Int) : State :=
  let good : Nat := if ofs.natAbs ≤ 200 then s.ptp.good + 1 else 0
  let bad : Nat := if 800 < ofs.natAbs then s.ptp.bad + 1 else 0
  let s : State := { s.trimServo with ptp := { s.ptp with good := good, bad := bad } }
  if 4 ≤ bad then s.loseLock
  else if s.ptp.state = .acquiring ∧ 16 ≤ good then
    { s with ptp := { s.ptp with state := .locked, locks := satInc s.ptp.locks } }
  else s

/-- The offset at a Sync of the time port (R305): without a path delay the servo holds. -/
def State.useSync (s : State) (master loc : Int) : State :=
  let s := { s with ptp := { s.ptp with syncs := s.ptp.syncs + 1 } }
  if s.ptp.delayOk then
    let ofs := loc - master - s.ptp.mpd
    let s := { s with ptp := { s.ptp with ofs := ofs } }
    if s.ptp.state = .unlocked then s.acquire ofs else s.servo ofs
  else s

/-! ### Sync and the time port (R304) -/

def Ptp.lastSync (x : Ptp) : Port → Option Nat
  | .a => x.lastSyncA
  | .b => x.lastSyncB

def Ptp.setSync (x : Ptp) (p : Port) (at_ : Nat) : Ptp :=
  match p with
  | .a => { x with lastSyncA := some at_ }
  | .b => { x with lastSyncB := some at_ }

/-- The time port at a Sync on port `p`: the port of the first Sync after selection, and port A when both copies arrive in
one cycle. -/
def Ptp.pickPort (x : Ptp) (p : Port) (now : Nat) : Option Port :=
  match x.timePort with
  | none => some p
  | some .b => if p = .a ∧ x.lastSyncA = none ∧ x.lastSyncB = some now ∧ x.syncs ≤ 1 then some .a else some .b
  | some .a => some .a

/-- SYNC (R304 to R306): `master` is the keeper's corrected time of the Sync, `loc` the node's own at the port.
Log 129, DESIGN CHOICE. -/
def execSync (p : Port) (src : BitVec 48) (_seqId : BitVec 16) (master loc : Int) (s : State) : Out :=
  if s.consumes = true ∧ s.keeperAddr = some src then
    let s := s.keeperHeard
    let port := s.ptp.pickPort p s.now
    let s := { s with ptp := { s.ptp.setSync p s.now with timePort := port } }
    .next (if port = some p then s.useSync master loc else s)
  else .next s

/-- TIME_PORT_CHANGE (R304): 1 s without a Sync on the time port while Syncs arrive on the other. -/
def execTimePortChange (s : State) : Out :=
  match s.ptp.timePort with
  | none => .next s
  | some p =>
    let quiet := match s.ptp.lastSync p with
      | some x => s.passed x sec
      | none => true
    let heard := match s.ptp.lastSync (otherPort p) with
      | some x => !s.passed x sec
      | none => false
    .next (if quiet && heard then s.changeTimePort (otherPort p) else s)

/-- SYNC_SILENCE (Table LN-4): 3 s without a Sync from the keeper on either port. -/
def execSyncSilence (s : State) : Out :=
  let quiet (x : Option Nat) : Bool := match x with
    | some a => s.passed a (3 * sec)
    | none => true
  .next (if (s.ptp.lastSyncA.isSome || s.ptp.lastSyncB.isSome) && quiet s.ptp.lastSyncA && quiet s.ptp.lastSyncB then s.loseLock
    else s)

/-! ### Path delay (R305) -/

/-- An own frame on one port alone. -/
def State.emitOn (s : State) (p : Port) (dst : BitVec 48) (et : BitVec 16) (payload : List Byte) : State :=
  let f : Frame :=
    { dst := dst, src := s.address, path := if p = .a then 0 else 1, seq := s.ring.seq, etherType := et, payload := payload,
      invalid := false }
  let s := s.modPort p (fun x => if x.state = .up then { x with qEvent := x.qEvent ++ [f] } else x)
  { s with ring := { s.ring with seq := s.ring.seq + 1, sentOwn := (s.address, f.seq, s.now) :: s.ring.sentOwn } }

/-- A Delay_Req of IEEE 1588-2019 (Table LN-3). The node's port identity is a free value (log 74, PRESUMED). -/
def delayReqBody (identity : Nat) (seq : BitVec 16) : List Byte :=
  [0x01, 0x02] ++ bytesBE 44 2 ++ List.replicate 16 0 ++ bytesBE identity 8 ++ bytesBE 1 2 ++ bytesBE seq.toNat 2 ++ [1, 0x7f]
    ++ List.replicate 10 0

/-- Whether a Delay_Req falls due: the first of four after a change at once and the others 125 ms apart; otherwise one per second
of ring time, within its first 250 ms. -/
def State.delayReqDue (s : State) : Bool :=
  if s.ptp.burst = 0 then decide (s.ptp.dreqAt < s.wholeSecond) && decide (s.now ≤ s.wholeSecond + 250 * ms)
  else decide (s.ptp.burst = 4) || s.passed s.ptp.dreqAt (125 * ms)

/-- DELAY_REQ_SEND (R304, R305): on the time port alone. -/
def execDelayReqSend (s : State) : Out :=
  match s.ptp.timePort with
  | none => .next s
  | some p =>
    if s.speaks = true ∧ s.delayReqDue = true then
      let (n, s) := s.takeFree
      let s := s.emitOn p ptpGroup etPtp (delayReqBody (Config.freeNat n 5) (s.ptp.dreqs.truncate 16))
      .next { s with ptp := { s.ptp with
        dreqs := s.ptp.dreqs + 1, dreqAt := s.now, burst := s.ptp.burst - 1, asked := s.ptp.asked + 1 } }
    else .next s

/-- DELAY_RESP (R305): the exchange it completes, with its path delay; the mean is taken over the last eight, rounded down
(log 77, DEDUCED). The copy on the other port completes nothing. Log 105, DEDUCED. -/
def execDelayResp (_p : Port) (src : BitVec 48) (delay : Nat) (s : State) : Out :=
  if s.consumes = true ∧ s.keeperAddr = some src ∧ s.ptp.timePort.isSome = true ∧ s.ptp.asked ≠ 0 then
    let l := (delay :: s.ptp.delays).take 8
    .next { s with ptp := { s.ptp with
      delays := l, delayOk := true, mpd := l.foldl (· + ·) 0 / l.length, asked := s.ptp.asked - 1 } }
  else .next s

/-! ### The keeper (R304) -/

/-- The order of the best master clock algorithm on two different clocks: lower is better. -/
def announceRank (m : AnnounceMsg) : List Nat :=
  [m.priority1.toNat, m.clockClass.toNat, m.accuracy.toNat, m.variance.toNat, m.priority2.toNat, m.identity.toNat, m.steps.toNat]

def lexLess : List Nat → List Nat → Bool
  | x :: xs, y :: ys => decide (x < y) || (decide (x = y) && lexLess xs ys)
  | _, _ => false

/-- What an Announce of the selected clock leaves. -/
def State.heedAnnounce (s : State) (m : AnnounceMsg) : State :=
  { s with ptp := { s.ptp with keeper := some m, lastAnn := some s.now, utc := m.utcOffset, utcOk := m.utcValid } }

/-- No clock is selected: what belonged to the last one goes, and lock ends. -/
def State.dropKeeper (s : State) : State :=
  let s := s.loseLock
  { s with ptp := { s.ptp with
      keeper := none, timePort := none, delays := [], delayOk := false, lastSyncA := none, lastSyncB := none, lastAnn := none,
      burst := 0, asked := 0 } }

/-- ANNOUNCE (R304): domain 0 alone; the selected clock's own refreshes it, and a better clock replaces it (Edges of 17).
An Announce of 255 steps is no candidate (log 78, PRESUMED). -/
def execAnnounce (_p : Port) (m : AnnounceMsg) (s : State) : Out :=
  if s.consumes = false ∨ m.domain ≠ 0 ∨ 255 ≤ m.steps.toNat then .next s
  else
    match s.ptp.keeper with
    | none => .next (s.heedAnnounce m)
    | some k =>
      if m.identity = k.identity then .next (s.heedAnnounce m)
      else if lexLess (announceRank m) (announceRank k) then .next (s.dropKeeper.heedAnnounce m)
      else .next s

/-- ANNOUNCE_TIMEOUT (Table LN-3): three intervals of 1 s without an Announce of the keeper. -/
def execAnnounceTimeout (s : State) : Out :=
  match s.ptp.lastAnn with
  | some x => .next (if s.passed x (3 * sec) then s.dropKeeper else s)
  | none => .next s

end Sys2Proof.Machine
end

