-- ==== Sys2Proof/Machine/Short.lean ====
section
/-! DEFINITION. The short ops of Table HW-4 and the pair they issue in (R174 to R178, R186 to R189): each op, the checks
of both slots before either acts, and one command per op in slot A. -/

namespace Sys2Proof.Machine

/-! ### Stack forms -/

/-- Replace the top `n` items by `f` of them, items and result top first. -/
def Arch.onTop (a : Arch) (n : Nat) (f : (Nat → Word) → List Word) : Arch :=
  { a with ds := f (fun i => a.ds.getD i 0) ++ a.ds.drop n }
/-- ( a b -- f a b ). -/
def Arch.bin (a : Arch) (f : Word → Word → Word) : Arch := { a with ds := f (a.ds.getD 1 0) (a.ds.getD 0 0) :: a.ds.drop 2 }
/-- ( x -- f x ). -/
def Arch.un (a : Arch) (f : Word → Word) : Arch := { a with ds := f (a.ds.getD 0 0) :: a.ds.drop 1 }
/-- A return-stack push that has room, or that loses the oldest entry (R178). -/
def Arch.rsPush (a : Arch) (v : Word) : Arch := { a with rs := v :: a.rs.take 11 }
/-- Push an accumulator as RDRE and RDIM read it (R223). -/
def Arch.pushAcc (a : Arch) (acc : BitVec 40) : Arch :=
  let r := a.readAcc acc
  { a with ds := r.1 :: a.ds, rov := a.rov || r.2 }

/-! ### Ops on the registers of a context -/

/-- NOP: NOP. -/
def opNop (a : Arch) : Arch :=
  a
/-- DUP: ( x -- x x ). -/
def opDup (a : Arch) : Arch :=
  a.onTop 1 (fun xs => [xs 0, xs 0])
/-- DROP: ( x -- ). -/
def opDrop (a : Arch) : Arch :=
  a.onTop 1 (fun _ => [])
/-- SWAP: ( a b -- b a ). -/
def opSwap (a : Arch) : Arch :=
  a.onTop 2 (fun xs => [xs 1, xs 0])
/-- OVER: ( a b -- a b a ). -/
def opOver (a : Arch) : Arch :=
  a.onTop 2 (fun xs => [xs 1, xs 0, xs 1])
/-- ROT: ( a b c -- b c a ). -/
def opRot (a : Arch) : Arch :=
  a.onTop 3 (fun xs => [xs 2, xs 0, xs 1])
/-- NIP: ( a b -- b ). -/
def opNip (a : Arch) : Arch :=
  a.onTop 2 (fun xs => [xs 0])
/-- TUCK: ( a b -- b a b ). -/
def opTuck (a : Arch) : Arch :=
  a.onTop 2 (fun xs => [xs 0, xs 1, xs 0])
/-- PICK: ( xn ... x0 n -- xn ... x0 xn ). -/
def opPick (a : Arch) : Arch :=
  { a with ds := replaceTop (a.ds.getD ((a.ds.getD 0 0).toNat + 1) 0) a.ds }
/-- TOR: ( x -- ) R:( -- x ). -/
def opTor (a : Arch) : Arch :=
  (a.rsPush (a.ds.getD 0 0)).onTop 1 (fun _ => [])
/-- FROMR: ( -- x ) R:( x -- ). -/
def opFromr (a : Arch) : Arch :=
  { a with ds := a.rs.getD 0 0 :: a.ds, rs := a.rs.drop 1 }
/-- RFETCH: ( -- x ) R:( x -- x ). -/
def opRfetch (a : Arch) : Arch :=
  { a with ds := a.rs.getD 0 0 :: a.ds }
/-- RDROP: R:( x -- ). -/
def opRdrop (a : Arch) : Arch :=
  { a with rs := a.rs.drop 1 }
/-- ADD: a + b. -/
def opAdd (a : Arch) : Arch :=
  a.bin (fun x y => x + y)
/-- SUB: a - b. -/
def opSub (a : Arch) : Arch :=
  a.bin (fun x y => x - y)
/-- NEG: -x. -/
def opNeg (a : Arch) : Arch :=
  a.un (fun x => -x)
/-- INC: x + 1. -/
def opInc (a : Arch) : Arch :=
  a.un (fun x => x + 1)
/-- DEC: x - 1. -/
def opDec (a : Arch) : Arch :=
  a.un (fun x => x - 1)
/-- MUL: a[17:0] x b[17:0], signed. -/
def opMul (a : Arch) : Arch :=
  a.bin mulWord
/-- MULU: a[17:0] x b[17:0], unsigned. -/
def opMulu (a : Arch) : Arch :=
  a.bin muluWord
/-- MIN: signed minimum. -/
def opMin (a : Arch) : Arch :=
  a.bin minWord
/-- MAX: signed maximum. -/
def opMax (a : Arch) : Arch :=
  a.bin maxWord
/-- ABS: signed magnitude. -/
def opAbs (a : Arch) : Arch :=
  a.un absWord
/-- AND: bitwise. -/
def opAnd (a : Arch) : Arch :=
  a.bin (fun x y => x &&& y)
/-- OR: bitwise. -/
def opOr (a : Arch) : Arch :=
  a.bin (fun x y => x ||| y)
/-- XOR: bitwise. -/
def opXor (a : Arch) : Arch :=
  a.bin (fun x y => x ^^^ y)
/-- NOT: bitwise. -/
def opNot (a : Arch) : Arch :=
  a.un (fun x => ~~~x)
/-- SHL: ( x n -- x' ), R187. -/
def opShl (a : Arch) : Arch :=
  a.bin shlWord
/-- SHR: ( x n -- x' ), R187. -/
def opShr (a : Arch) : Arch :=
  a.bin shrWord
/-- ASR: ( x n -- x' ), R187. -/
def opAsr (a : Arch) : Arch :=
  a.bin asrWord
/-- ROL: ( x n -- x' ), R187. -/
def opRol (a : Arch) : Arch :=
  a.bin rolWord
/-- SHL1: by one bit. -/
def opShl1 (a : Arch) : Arch :=
  a.un (fun x => x <<< 1)
/-- SHR1: by one bit. -/
def opShr1 (a : Arch) : Arch :=
  a.un (fun x => x >>> 1)
/-- ASR1: by one bit. -/
def opAsr1 (a : Arch) : Arch :=
  a.un (fun x => x.sshiftRight 1)
/-- EQ: ( a b -- f ). -/
def opEq (a : Arch) : Arch :=
  a.bin (fun x y => Word.ofBool (decide (x = y)))
/-- LT: ( a b -- f ), signed. -/
def opLt (a : Arch) : Arch :=
  a.bin (fun x y => Word.ofBool (x.slt y))
/-- ULT: ( a b -- f ), unsigned. -/
def opUlt (a : Arch) : Arch :=
  a.bin (fun x y => Word.ofBool (x.ult y))
/-- ZEQ: ( x -- f ). -/
def opZeq (a : Arch) : Arch :=
  a.un (fun x => Word.ofBool (decide (x = 0)))
/-- ZLT: ( x -- f ). -/
def opZlt (a : Arch) : Arch :=
  a.un (fun x => Word.ofBool (x.slt 0))
/-- CRC: ( c b -- c' ), R188. -/
def opCrc (a : Arch) : Arch :=
  a.bin (crcWord a)
/-- PAR: XOR of bits [35:0]. -/
def opPar (a : Arch) : Arch :=
  a.un parWord
/-- BREV: ( x n -- x' ), R187. -/
def opBrev (a : Arch) : Arch :=
  a.bin brevWord
/-- CLRA: both accumulators clear (R222). -/
def opClra (a : Arch) : Arch :=
  { a with acr := 0, aci := 0 }
/-- RDRE: the rounded ACR (R223). -/
def opRdre (a : Arch) : Arch :=
  a.pushAcc a.acr
/-- RDIM: the rounded ACI (R223). -/
def opRdim (a : Arch) : Arch :=
  a.pushAcc a.aci
/-- WRRE: ACR from the popped word (R222). -/
def opWrre (a : Arch) : Arch :=
  let r := a.writeAcc (a.ds.getD 0 0)
  { a with acr := r.1, ova := a.ova || r.2, ds := a.ds.drop 1 }
/-- WRIM: ACI from the popped word (R222). -/
def opWrim (a : Arch) : Arch :=
  let r := a.writeAcc (a.ds.getD 0 0)
  { a with aci := r.1, ova := a.ova || r.2, ds := a.ds.drop 1 }
/-- NORM: shifted left by EXP (R226). -/
def opNorm (a : Arch) : Arch :=
  a.un (fun x => x <<< expWord x)
/-- EXP: EXP (R226). -/
def opExp (a : Arch) : Arch :=
  a.un (fun x => BitVec.ofNat 36 (expWord x))
/-- BEXP: RBX takes the larger of itself and 35 - EXP (R226). -/
def opBexp (a : Arch) : Arch :=
  let e := BitVec.ofNat 6 (35 - expWord (a.ds.getD 0 0))
  { a with rbx := if a.rbx < e then e else a.rbx, ds := a.ds.drop 1 }
/-- RDBX: 35 - RBX, and RBX to 0 (R226). -/
def opRdbx (a : Arch) : Arch :=
  { a with ds := (35 - a.rbx.zeroExtend 36) :: a.ds, rbx := 0 }
/-- RND: RCONV from bit 0 (R224). -/
def opRnd (a : Arch) : Arch :=
  { a with rconv := (a.ds.getD 0 0).getLsbD 0, ds := a.ds.drop 1 }

/-- OSk: OPk takes v[10:0]. -/
def opOs (k : Fin 8) (a : Arch) : Arch :=
  { a with ops := a.ops.set k ((a.ds.getD 0 0).extractLsb' 0 11), ds := a.ds.drop 1 }

/-! ### Ops on memory -/

/-- An op on the registers as a piece of an instruction. -/
def pureOp (f : Arch → Arch) (s : State) (t : Ctx) : Res Unit := .ok (s.modArch t f) ()

/-- LDI ( a -- m[a] ). -/
def opLdi (s : State) (t : Ctx) : Res Unit :=
  (s.load t (wordAddr ((s.ctx t).arch.ds.getD 0 0))).bind (fun s v =>
    .ok (s.modArch t (fun a => { a with ds := replaceTop v a.ds })) ())
/-- STI ( v a -- ). -/
def opSti (s : State) (t : Ctx) : Res Unit :=
  let ds := (s.ctx t).arch.ds
  (s.store t (wordAddr (ds.getD 0 0)) (ds.getD 1 0)).bind (fun s _ =>
    .ok (s.modArch t (fun a => { a with ds := a.ds.drop 2 })) ())
/-- LDIP ( a -- a+1 m[a] ). -/
def opLdip (s : State) (t : Ctx) : Res Unit :=
  let p := (s.ctx t).arch.ds.getD 0 0
  (s.load t (wordAddr p)).bind (fun s v =>
    .ok (s.modArch t (fun a => { a with ds := v :: (p + 1) :: a.ds.drop 1 })) ())
/-- STIP ( v a -- a+1 ). -/
def opStip (s : State) (t : Ctx) : Res Unit :=
  let ds := (s.ctx t).arch.ds
  (s.store t (wordAddr (ds.getD 0 0)) (ds.getD 1 0)).bind (fun s _ =>
    .ok (s.modArch t (fun a => { a with ds := (ds.getD 0 0 + 1) :: a.ds.drop 2 })) ())
/-- MOVS: one element, none with CNT = 0 (R189). -/
def opMovs (s : State) (t : Ctx) : Res Unit := if (s.ctx t).arch.cnt = 0 then .ok s () else s.movsElem t
/-- FILLS ( v -- v ). -/
def opFills (s : State) (t : Ctx) : Res Unit :=
  if (s.ctx t).arch.cnt = 0 then .ok s () else s.fillsElem t ((s.ctx t).arch.ds.getD 0 0)
/-- CRCS. -/
def opCrcs (s : State) (t : Ctx) : Res Unit := if (s.ctx t).arch.cnt = 0 then .ok s () else s.crcsElem t
/-- SCANS ( v -- v f ). -/
def opScans (s : State) (t : Ctx) : Res Unit :=
  let push (s : State) (f : Bool) : Res Unit := .ok (s.modArch t (fun a => { a with ds := Word.ofBool f :: a.ds })) ()
  if (s.ctx t).arch.cnt = 0 then push s false
  else (s.scansElem t ((s.ctx t).arch.ds.getD 0 0) (fun hit => hit)).bind push
/-- An operand word of MAC or CMAC: X or Y RAM through the store buffer (R218). -/
def State.operand (s : State) (t : Ctx) (bank : BitVec 7) (p : BitVec 11) : Res Word := s.load t (bankAddr bank p)
/-- MAC and CMAC (R219 to R221). -/
def opMacc (complex : Bool) (s : State) (t : Ctx) : Res Unit :=
  (s.operand t 0 (s.ctx t).arch.xp).bind (fun s x => (s.operand t 1 (s.ctx t).arch.yp).bind (fun s y =>
    .ok (s.modArch t (fun a => a.macc complex x y)) ()))
def opMac (s : State) (t : Ctx) : Res Unit := opMacc false s t
def opCmac (s : State) (t : Ctx) : Res Unit := opMacc true s t

/-! ### The table -/

/-- The op of a code (Table HW-4); a code that is not listed is refused by `pairCheck` before. -/
def shortOp (c : Nat) : State → Ctx → Res Unit :=
  match c with
  | 0x00 => pureOp opNop
  | 0x01 => pureOp opDup
  | 0x02 => pureOp opDrop
  | 0x03 => pureOp opSwap
  | 0x04 => pureOp opOver
  | 0x05 => pureOp opRot
  | 0x06 => pureOp opNip
  | 0x07 => pureOp opTuck
  | 0x08 => pureOp opPick
  | 0x09 => pureOp opTor
  | 0x0a => pureOp opFromr
  | 0x0b => pureOp opRfetch
  | 0x0c => pureOp opRdrop
  | 0x10 => pureOp opAdd
  | 0x11 => pureOp opSub
  | 0x12 => pureOp opNeg
  | 0x13 => pureOp opInc
  | 0x14 => pureOp opDec
  | 0x15 => pureOp opMul
  | 0x16 => pureOp opMulu
  | 0x17 => pureOp opMin
  | 0x18 => pureOp opMax
  | 0x19 => pureOp opAbs
  | 0x20 => pureOp opAnd
  | 0x21 => pureOp opOr
  | 0x22 => pureOp opXor
  | 0x23 => pureOp opNot
  | 0x24 => pureOp opShl
  | 0x25 => pureOp opShr
  | 0x26 => pureOp opAsr
  | 0x27 => pureOp opRol
  | 0x28 => pureOp opShl1
  | 0x29 => pureOp opShr1
  | 0x2a => pureOp opAsr1
  | 0x30 => pureOp opEq
  | 0x31 => pureOp opLt
  | 0x32 => pureOp opUlt
  | 0x33 => pureOp opZeq
  | 0x34 => pureOp opZlt
  | 0x38 => pureOp opCrc
  | 0x39 => pureOp opPar
  | 0x3a => pureOp opBrev
  | 0x52 => pureOp opClra
  | 0x53 => pureOp opRdre
  | 0x54 => pureOp opRdim
  | 0x55 => pureOp opWrre
  | 0x56 => pureOp opWrim
  | 0x57 => pureOp opNorm
  | 0x58 => pureOp opExp
  | 0x59 => pureOp opBexp
  | 0x5a => pureOp opRdbx
  | 0x5b => pureOp opRnd
  | 0x40 => opLdi
  | 0x41 => opSti
  | 0x42 => opLdip
  | 0x43 => opStip
  | 0x44 => opMovs
  | 0x45 => opFills
  | 0x46 => opCrcs
  | 0x47 => opScans
  | 0x50 => opMac
  | 0x51 => opCmac
  | 0x48 => pureOp (opOs 0)
  | 0x49 => pureOp (opOs 1)
  | 0x4a => pureOp (opOs 2)
  | 0x4b => pureOp (opOs 3)
  | 0x4c => pureOp (opOs 4)
  | 0x4d => pureOp (opOs 5)
  | 0x4e => pureOp (opOs 6)
  | 0x4f => pureOp (opOs 7)
  | _ => fun s _ => .ok s ()

/-! ### The checks of a pair (R175, R177, R178, R188, R194) -/

/-- A code that is not listed, or CRC or CRCS under an invalid CRCC.W, is undefined. -/
def Arch.undefinedShort (a : Arch) (c : Nat) : Bool :=
  (shortInfo c).isNone || ((c == 0x38 || c == 0x46) && !a.crcOk)

/-- The stack causes of one op at data-stack depth `d`: the cause, or the depth after it. PICK needs n below depth - 1. -/
def Arch.stackCause (a : Arch) (c d : Nat) : Except (BitVec 6) Nat :=
  match shortInfo c with
  | none => .ok d
  | some i =>
    if d < i.takes then .error causeDsunf
    else if c = 0x08 ∧ d - 1 ≤ (a.ds.getD (a.ds.length - d) 0).toNat then .error causeDsunf
    else if 16 < d - i.takes + i.leaves then .error causeDsovf
    else if c = 0x09 ∧ 12 ≤ a.rs.length ∧ !a.rswrap then .error causeRsovf
    else if (c = 0x0a ∨ c = 0x0b ∨ c = 0x0c) ∧ a.rs = [] then .error causeRsunf
    else .ok (d - i.takes + i.leaves)

/-- A cause of a pair, with the slot it names. -/
def slotCause (code : BitVec 6) (slot : BitVec 2) (word : Word) : Raise :=
  { code := code, qual := 0, slot := slot, data := some word, ms := false }

/-- The causes found before either op acts: UND, then PAIRDEP, then the stack checks of A and of B. -/
def Arch.pairCheck (a : Arch) (ca cb : Nat) (word : Word) (free : BitVec 2) : Option Raise :=
  if a.undefinedShort ca then some (slotCause causeUnd 1 word)
  else if a.undefinedShort cb then some (slotCause causeUnd 2 word)
  else if pairDep ca cb then some (slotCause causePairdep free word)
  else
    match a.stackCause ca a.ds.length with
    | .error c => some (slotCause c 1 word)
    | .ok d =>
      match a.stackCause cb d with
      | .error c => some (slotCause c 2 word)
      | .ok _ => none

/-- A cause that an op raises in its slot. -/
def Res.inSlot (r : Res Unit) (slot : BitVec 2) : Res Unit :=
  match r with
  | .raise s r => .raise s { r with slot := slot }
  | x => x

/-- The pair of op A with code `ca` and the op of code `cb` (R175): A, then B, when neither raises a cause. Which slot
BSLOT names for PAIRDEP is not given: a free value (log 28, DESIGN CHOICE). -/
def State.pairBody (s : State) (t : Ctx) (ca : Nat) (opA : State → Ctx → Res Unit) (cb : Nat) (word : Word) : Res Flow :=
  match (s.ctx t).arch.pairCheck ca cb word (BitVec.ofNat 2 (Config.freeNat s.free 2)) with
  | some r => .raise { s with free := s.free + 1 } r
  | none => ((opA s t).inSlot 1).bind (fun s _ => (((shortOp cb s t).inSlot 2).seq))

/-- Issue a pair with `opA` in slot A. -/
def State.pair (s : State) (t : Ctx) (ca : BitVec 8) (opA : State → Ctx → Res Unit) (b : BitVec 8) (bar : Bool) : State :=
  let word := pairWord ca b bar
  s.issue t { word := word, plain := true, barrier := false, bar := bar } (fun s => s.pairBody t ca.toNat opA b.toNat word)

/-- Issue an undefined word: UND, with BSLOT naming slot A of a pair (R175, R181, R186, R194). -/
def State.undefinedOp (s : State) (t : Ctx) (w : BitVec 18) : State :=
  let word : Word := w.zeroExtend 36
  s.issue t { word := word, plain := true, barrier := false }
    (fun s => .raise s (slotCause causeUnd (if w.getLsbD 17 then 1 else 0) word))

/-! ### The commands, by the op in slot A -/

/-- NOP, or in its place an instruction word that Table HW-3 or Table HW-4 does not list (log 9, DESIGN CHOICE). -/
def execNop (t : Ctx) (b : SlotB) (bar : Bool) (s : State) : Out :=
  match b with
  | .undefined w => .next (s.undefinedOp t w)
  | .op c => .next (s.pair t 0x00 (pureOp opNop) c bar)
def execDup (t : Ctx) (b : BitVec 8) (bar : Bool) (par : Option UnitPart) (s : State) : Out :=
  match par with
  | some p => .next (s.unitParity t p)
  | none => .next (s.pair t 0x01 (pureOp opDup) b bar)
def execDrop (t : Ctx) (b : BitVec 8) (bar : Bool) (s : State) : Out := .next (s.pair t 0x02 (pureOp opDrop) b bar)
def execSwap (t : Ctx) (b : BitVec 8) (bar : Bool) (s : State) : Out := .next (s.pair t 0x03 (pureOp opSwap) b bar)
def execOver (t : Ctx) (b : BitVec 8) (bar : Bool) (s : State) : Out := .next (s.pair t 0x04 (pureOp opOver) b bar)
def execRot (t : Ctx) (b : BitVec 8) (bar : Bool) (s : State) : Out := .next (s.pair t 0x05 (pureOp opRot) b bar)
def execNip (t : Ctx) (b : BitVec 8) (bar : Bool) (s : State) : Out := .next (s.pair t 0x06 (pureOp opNip) b bar)
def execTuck (t : Ctx) (b : BitVec 8) (bar : Bool) (s : State) : Out := .next (s.pair t 0x07 (pureOp opTuck) b bar)
def execPick (t : Ctx) (b : BitVec 8) (bar : Bool) (s : State) : Out := .next (s.pair t 0x08 (pureOp opPick) b bar)
def execTor (t : Ctx) (b : BitVec 8) (bar : Bool) (s : State) : Out := .next (s.pair t 0x09 (pureOp opTor) b bar)
def execFromr (t : Ctx) (b : BitVec 8) (bar : Bool) (s : State) : Out := .next (s.pair t 0x0a (pureOp opFromr) b bar)
def execRfetch (t : Ctx) (b : BitVec 8) (bar : Bool) (s : State) : Out := .next (s.pair t 0x0b (pureOp opRfetch) b bar)
def execRdrop (t : Ctx) (b : BitVec 8) (bar : Bool) (s : State) : Out := .next (s.pair t 0x0c (pureOp opRdrop) b bar)
def execAdd (t : Ctx) (b : BitVec 8) (bar : Bool) (s : State) : Out := .next (s.pair t 0x10 (pureOp opAdd) b bar)
def execSub (t : Ctx) (b : BitVec 8) (bar : Bool) (s : State) : Out := .next (s.pair t 0x11 (pureOp opSub) b bar)
def execNeg (t : Ctx) (b : BitVec 8) (bar : Bool) (s : State) : Out := .next (s.pair t 0x12 (pureOp opNeg) b bar)
def execInc (t : Ctx) (b : BitVec 8) (bar : Bool) (s : State) : Out := .next (s.pair t 0x13 (pureOp opInc) b bar)
def execDec (t : Ctx) (b : BitVec 8) (bar : Bool) (s : State) : Out := .next (s.pair t 0x14 (pureOp opDec) b bar)
def execMul (t : Ctx) (b : BitVec 8) (bar : Bool) (s : State) : Out := .next (s.pair t 0x15 (pureOp opMul) b bar)
def execMulu (t : Ctx) (b : BitVec 8) (bar : Bool) (s : State) : Out := .next (s.pair t 0x16 (pureOp opMulu) b bar)
def execMin (t : Ctx) (b : BitVec 8) (bar : Bool) (s : State) : Out := .next (s.pair t 0x17 (pureOp opMin) b bar)
def execMax (t : Ctx) (b : BitVec 8) (bar : Bool) (s : State) : Out := .next (s.pair t 0x18 (pureOp opMax) b bar)
def execAbs (t : Ctx) (b : BitVec 8) (bar : Bool) (s : State) : Out := .next (s.pair t 0x19 (pureOp opAbs) b bar)
def execAnd (t : Ctx) (b : BitVec 8) (bar : Bool) (s : State) : Out := .next (s.pair t 0x20 (pureOp opAnd) b bar)
def execOr (t : Ctx) (b : BitVec 8) (bar : Bool) (s : State) : Out := .next (s.pair t 0x21 (pureOp opOr) b bar)
def execXor (t : Ctx) (b : BitVec 8) (bar : Bool) (s : State) : Out := .next (s.pair t 0x22 (pureOp opXor) b bar)
def execNot (t : Ctx) (b : BitVec 8) (bar : Bool) (s : State) : Out := .next (s.pair t 0x23 (pureOp opNot) b bar)
def execShl (t : Ctx) (b : BitVec 8) (bar : Bool) (s : State) : Out := .next (s.pair t 0x24 (pureOp opShl) b bar)
def execShr (t : Ctx) (b : BitVec 8) (bar : Bool) (s : State) : Out := .next (s.pair t 0x25 (pureOp opShr) b bar)
def execAsr (t : Ctx) (b : BitVec 8) (bar : Bool) (s : State) : Out := .next (s.pair t 0x26 (pureOp opAsr) b bar)
def execRol (t : Ctx) (b : BitVec 8) (bar : Bool) (s : State) : Out := .next (s.pair t 0x27 (pureOp opRol) b bar)
def execShl1 (t : Ctx) (b : BitVec 8) (bar : Bool) (s : State) : Out := .next (s.pair t 0x28 (pureOp opShl1) b bar)
def execShr1 (t : Ctx) (b : BitVec 8) (bar : Bool) (s : State) : Out := .next (s.pair t 0x29 (pureOp opShr1) b bar)
def execAsr1 (t : Ctx) (b : BitVec 8) (bar : Bool) (s : State) : Out := .next (s.pair t 0x2a (pureOp opAsr1) b bar)
def execEq (t : Ctx) (b : BitVec 8) (bar : Bool) (s : State) : Out := .next (s.pair t 0x30 (pureOp opEq) b bar)
def execLt (t : Ctx) (b : BitVec 8) (bar : Bool) (s : State) : Out := .next (s.pair t 0x31 (pureOp opLt) b bar)
def execUlt (t : Ctx) (b : BitVec 8) (bar : Bool) (s : State) : Out := .next (s.pair t 0x32 (pureOp opUlt) b bar)
def execZeq (t : Ctx) (b : BitVec 8) (bar : Bool) (s : State) : Out := .next (s.pair t 0x33 (pureOp opZeq) b bar)
def execZlt (t : Ctx) (b : BitVec 8) (bar : Bool) (s : State) : Out := .next (s.pair t 0x34 (pureOp opZlt) b bar)
def execCrc (t : Ctx) (b : BitVec 8) (bar : Bool) (s : State) : Out := .next (s.pair t 0x38 (pureOp opCrc) b bar)
def execPar (t : Ctx) (b : BitVec 8) (bar : Bool) (s : State) : Out := .next (s.pair t 0x39 (pureOp opPar) b bar)
def execBrev (t : Ctx) (b : BitVec 8) (bar : Bool) (s : State) : Out := .next (s.pair t 0x3a (pureOp opBrev) b bar)
def execLdi (t : Ctx) (b : BitVec 8) (bar : Bool) (s : State) : Out := .next (s.pair t 0x40 opLdi b bar)
def execSti (t : Ctx) (b : BitVec 8) (bar : Bool) (s : State) : Out := .next (s.pair t 0x41 opSti b bar)
def execLdip (t : Ctx) (b : BitVec 8) (bar : Bool) (s : State) : Out := .next (s.pair t 0x42 opLdip b bar)
def execStip (t : Ctx) (b : BitVec 8) (bar : Bool) (s : State) : Out := .next (s.pair t 0x43 opStip b bar)
def execMovs (t : Ctx) (b : BitVec 8) (bar : Bool) (s : State) : Out := .next (s.pair t 0x44 opMovs b bar)
def execFills (t : Ctx) (b : BitVec 8) (bar : Bool) (s : State) : Out := .next (s.pair t 0x45 opFills b bar)
def execCrcs (t : Ctx) (b : BitVec 8) (bar : Bool) (s : State) : Out := .next (s.pair t 0x46 opCrcs b bar)
def execScans (t : Ctx) (b : BitVec 8) (bar : Bool) (s : State) : Out := .next (s.pair t 0x47 opScans b bar)
def execOs (t : Ctx) (k : Fin 8) (b : BitVec 8) (bar : Bool) (s : State) : Out :=
  .next (s.pair t (0x48 + BitVec.ofNat 8 k.val) (pureOp (opOs k)) b bar)

end Sys2Proof.Machine
end

