-- ==== Sys2Proof/Machine/Riffle.lean ====
section
/-! DEFINITION. The commands of the Riffle ops in slot A (12, Table HW-4 codes 50h to 5Bh); their arithmetic is in
Flags.lean and their place in a pair in Short.lean. -/

namespace Sys2Proof.Machine

/-- MAC; a parity error in the unit's accumulators or stacks takes the unit offline instead (R356). -/
def execMac (t : Ctx) (b : BitVec 8) (bar : Bool) (par : Option UnitPart) (s : State) : Out :=
  match par with
  | some p => .next (s.unitParity t p)
  | none => .next (s.pair t 0x50 opMac b bar)
def execCmac (t : Ctx) (b : BitVec 8) (bar : Bool) (s : State) : Out := .next (s.pair t 0x51 opCmac b bar)
def execClra (t : Ctx) (b : BitVec 8) (bar : Bool) (s : State) : Out := .next (s.pair t 0x52 (pureOp opClra) b bar)
def execRdre (t : Ctx) (b : BitVec 8) (bar : Bool) (s : State) : Out := .next (s.pair t 0x53 (pureOp opRdre) b bar)
def execRdim (t : Ctx) (b : BitVec 8) (bar : Bool) (s : State) : Out := .next (s.pair t 0x54 (pureOp opRdim) b bar)
def execWrre (t : Ctx) (b : BitVec 8) (bar : Bool) (s : State) : Out := .next (s.pair t 0x55 (pureOp opWrre) b bar)
def execWrim (t : Ctx) (b : BitVec 8) (bar : Bool) (s : State) : Out := .next (s.pair t 0x56 (pureOp opWrim) b bar)
def execNorm (t : Ctx) (b : BitVec 8) (bar : Bool) (s : State) : Out := .next (s.pair t 0x57 (pureOp opNorm) b bar)
def execExp (t : Ctx) (b : BitVec 8) (bar : Bool) (s : State) : Out := .next (s.pair t 0x58 (pureOp opExp) b bar)
def execBexp (t : Ctx) (b : BitVec 8) (bar : Bool) (s : State) : Out := .next (s.pair t 0x59 (pureOp opBexp) b bar)
def execRdbx (t : Ctx) (b : BitVec 8) (bar : Bool) (s : State) : Out := .next (s.pair t 0x5a (pureOp opRdbx) b bar)
def execRnd (t : Ctx) (b : BitVec 8) (bar : Bool) (s : State) : Out := .next (s.pair t 0x5b (pureOp opRnd) b bar)

end Sys2Proof.Machine
end

