-- ==== Sys2Proof/Machine/Roll.lean ====
section
/-! DEFINITION. Roll speed and TIME-AUX from the keeper (R114, R330, R331). -/

namespace Sys2Proof.Machine

/-- ORDER takes the tachless estimate: the latest ROLL is 2 s old or there is none, or HOLD and ORDER stand together in ACT
(R114, code T of Table MD-4). Log 102, DEDUCED. -/
def State.noTach (s : State) : Bool :=
  (match s.mill.rollAt with
   | some x => s.passed x (2 * sec)
   | none => true)
  || (s.inAct mHold && s.inAct mOrder)

/-- The source of ORDER's speed; a change is flagged in each tenant's next finding, if its grant then holds ORDER (R114). -/
def State.settleSpeed (s : State) : State :=
  if s.noTach = s.mill.tachless then s
  else ({ s with mill := { s.mill with tachless := s.noTach } }).flagAll (fun _ => true) 14

/-- SPEED_SOURCE_CHANGE (R114). -/
def execSpeedSourceChange (s : State) : Out := .next s.settleSpeed

/-- The entry of socket `b` among the `n` of a ROLL body, when its speed is valid. -/
def rollEntry (body : List Byte) (b : BitVec 6) : Nat → Option (BitVec 32)
  | 0 => none
  | n + 1 =>
    match rollEntry body b n with
    | some v => some v
    | none =>
      let o := 12 + 6 * n
      if byteAt body o = b.zeroExtend 8 ∧ (byteAt body (o + 1)).getLsbD 0 = true then
        some (BitVec.ofNat 32 (fieldBE body (o + 2) 4))
      else none

/-- Some wait holds event 3. -/
def State.rollAwaited (s : State) : Bool :=
  allCtx.any (fun t => match (s.ctx t).waiting with
    | some w => w.mask.getLsbD evRoll
    | none => false)

/-- A valid entry for the node (R330): ORDSPD, the instant it stands for, WAIT event 3, and the wake of an array parked under a
wait for it (R107). Log 103, DEDUCED. -/
def State.takeRoll (s : State) (body : List Byte) (v : BitVec 32) : State :=
  let at_ := ((s.now : Int) + ((fieldBE body 0 8 : Int) - s.ringUs) * 1000).toNat
  let s := { s with mill := { s.mill with rollAt := some at_, speed := v } }
  let s := if s.rollAwaited then s.wakeArray else s
  (s.signalAll (1#7 <<< evRoll) []).settleSpeed

def State.onRoll (s : State) (m : Message) : State :=
  let s := s.keeperHeard
  match s.code.latched.s with
  | some b =>
    if s.bySerial then s
    else
      match rollEntry m.body b (byteAt m.body 8).toNat with
      | some v => s.takeRoll m.body v
      | none => s
  | none => s

/-- ROLL (R330). -/
def execRoll (m : Message) (s : State) : Out := .next (s.take m 0x06 (fun s => s.onRoll m))

/-- TIME_AUX (R331): the traceability byte stands as UNTRACED, the rest waits for F0h findings. -/
def execTimeAux (m : Message) (s : State) : Out :=
  .next (s.take m 0x05 (fun s => { s with mill := { s.mill with trace := some m.body } }))

end Sys2Proof.Machine
end

