-- ==== Sys2Proof/Machine/Sched.lean ====
section
/-! DEFINITION. The Bell at a boundary (R206 to R210), the scheduler (R213 to R215) and the timeout of a WAIT (R185). -/

namespace Sys2Proof.Machine

/-! ### The Bell -/

/-- The next cause due at the boundary, with whether it is asynchronous: a synchronous one first, then the asynchronous
ones in ascending code, which a handler holds (R207, R209). -/
def Context.nextCause (c : Context) : Option (Raise × Bool) :=
  match c.sync with
  | r :: _ => some (r, false)
  | [] =>
    match c.pend with
    | r :: _ => if c.inBell then none else some (r, true)
    | [] => none

/-- The causes that stay after the next one is taken. -/
def Context.dropCause (c : Context) (async : Bool) : Context :=
  if async then { c with pend := c.pend.drop 1 } else { c with sync := c.sync.drop 1 }

/-- Take the next cause at the boundary (R206, R210, Table PB-6). A speculation rolls back to its BRC first (R205). -/
def State.takeNext (s : State) (t : Ctx) (r : Raise) (async : Bool) : State :=
  let s := (s.rollAsync t).modCtx t (fun c => c.dropCause async)
  if (s.ctx t).inBell then s.nested t r
  else s.enterBell t r { ds := false, ms := r.ms, le := false, sp := r.sp, as_ := async } (s.ctx t).pc

/-- Causes whose CXBEN bit has been cleared while they were held are dropped and counted at the boundary (R207). -/
def State.dropDisabled (s : State) (t : Ctx) : State :=
  let c := s.ctx t
  if c.inBell then s
  else
    let s := (c.pend.filter (fun r => !c.enables r.code)).foldl (fun s r =>
      match cxbenBit r.code with
      | some i => s.dropCause t i
      | none => s) s
    s.modCtx t (fun c => { c with pend := c.pend.filter (fun r => c.enables r.code) })

def execBell (t : Ctx) (s : State) : Out :=
  if s.running t && (s.ctx t).bellDue then
    let s := s.dropDisabled t
    match (s.ctx t).nextCause with
    | some (r, async) => .next (s.takeNext t r async)
    | none => .next s
  else .next s

/-! ### Credits (R214) -/

/-- The context's quantum in nanoseconds: QWGT times 1 000 µs. -/
def Context.quantum (c : Context) : Int := Nat.max 1 c.qwgt.toNat * 1000000

/-- The rounds that begin before a context's credit is above zero. -/
def Context.roundsFor (c : Context) : Nat := if 0 < c.credit then 0 else ((-c.credit) / c.quantum).toNat + 1

/-- The credit after `k` rounds have begun: an overrun is carried into each. -/
def Context.creditAfter (c : Context) (k : Nat) : Int :=
  if k = 0 then c.credit else min (min c.credit 0 + (k : Int) * c.quantum) c.quantum

/-- The contexts that are ready. -/
def State.readyCtxs (s : State) : List Ctx := allCtx.filter (fun t => decide ((s.ctx t).state = .ready))

/-- The context with the largest credit, ties to the lower number. -/
def State.richest (s : State) : Option Ctx :=
  s.readyCtxs.foldl (fun (best : Option Ctx) t =>
    match best with
    | none => some t
    | some b => if (s.ctx b).credit < (s.ctx t).credit then some t else some b) none

/-- New rounds begin until a ready context has credit above zero. -/
def State.newRounds (s : State) : State :=
  let k := s.readyCtxs.foldl (fun (m : Option Nat) t =>
    match m with
    | none => some (s.ctx t).roundsFor
    | some n => some (Nat.min n (s.ctx t).roundsFor)) none
  match k with
  | none => s
  | some k => { s with ctxs := s.ctxs.map (fun c => if c.live then { c with credit := c.creditAfter k } else c) }

/-! ### Slices -/

/-- The length of the slice under way: 1 000 µs, or less where the credit is less. -/
def Context.sliceLen (c : Context) : Int := min 1000000 c.credit

/-- How long a slice has run. -/
def State.sliceRun (s : State) (t : Ctx) : Int := (s.now : Int) - ((s.ctx t).sliceAt : Int)

/-- The outgoing context is saved: its slice ended by expiry, and an overrun of more than 64 µs counts (R213, R215). -/
def State.saveOut (s : State) (n : UnitId) (t : Ctx) : State :=
  let late := decide (64000 < s.sliceRun t - (s.ctx t).sliceLen)
  let s := (s.endSlice t true).modCtx t (fun c => { c with state := .ready })
  if late then s.modUnit n (fun u => { u with ovr := satInc u.ovr }) else s

/-- The incoming context runs: QUANTUM after an expired slice (R215), and an abandoned op runs again (R213). -/
def State.loadIn (s : State) (n : UnitId) (t : Ctx) : State :=
  let expired := (s.ctx t).expired
  let s := s.modUnit n (fun u => { u with ctx := some t, swapPend := false })
  let s := s.modCtx t (fun c => { c with state := .running, unit := n, sliceAt := s.now, expired := false })
  let s := if expired then s.takeCause t (plainCause causeQuantum 0) else s
  match (s.ctx t).rerun with
  | some r => (s.modCtx t (fun c => { c with rerun := none })).startOp t r.1 r.2 false none
  | none => s

/-- The free unit takes a ready context (R214), the parity of whose save copy is checked (R356). -/
def State.takeReady (s : State) (n : UnitId) (par : Bool) : State :=
  let s := s.newRounds
  match s.richest with
  | some t => if par then s.unitOffline n t .saveCopy else s.loadIn n t
  | none => s

/-- A unit in service while the array is awake in RUN. -/
def State.unitReady (s : State) (n : UnitId) : Bool :=
  decide (s.power.phase = .run) && !s.modes.parked && !(s.hunit n).offline

/-- The unit's stores drain before it takes the next context (Table PB-7). -/
def State.drainForSwap (s : State) (n : UnitId) : Option State :=
  let s := s.drainUnit n
  if (s.hunit n).buffer.isEmpty then some s else none

def countSwap (u : HUnit) : HUnit := { u with swaps := u.swaps + 1 }

/-- CONTEXT_SWAP: the unit's pending swap at a swap point, or a free unit that takes a ready context. `par` says that the
save copy written, or read when nothing is saved, holds a parity error. Log 48, DEDUCED. Log 49, DEDUCED. -/
def execContextSwap (n : UnitId) (par : Bool) (s : State) : Out :=
  if !s.unitReady n then .next s
  else
    match (s.hunit n).ctx with
    | some t =>
      if !(s.hunit n).swapPend then .next s
      else
        let s := s.rollAsync t
        if !(s.ctx t).swapPoint then .next s
        else
          match s.drainForSwap n with
          | none => .next (s.drainUnit n)
          | some s => .next (if par then s.unitOffline n t .saveCopy
              else ((s.saveOut n t).modUnit n countSwap).takeReady n false)
    | none =>
      match s.drainForSwap n with
      | none => .next (s.drainUnit n)
      | some s => .next (if s.readyCtxs.isEmpty then s else (s.modUnit n countSwap).takeReady n par)

/-- SLICE_EXPIRY: the slice has run 1 000 µs or its credit out; the swap is pending from now on, and rolls a speculation
back (R214, R205). -/
def execSliceExpiry (n : UnitId) (s : State) : Out :=
  match (s.hunit n).ctx with
  | some t =>
    if s.unitReady n && !(s.hunit n).swapPend && decide ((s.ctx t).sliceLen ≤ s.sliceRun t) then
      .next ((s.rollAsync t).modUnit n (fun u => { u with swapPend := true }))
    else .next s
  | none => .next s

/-- WAIT_TIMEOUT (R185): the timeout of a wait ends it, and wakes a parked array (R107). -/
def execWaitTimeout (t : Ctx) (s : State) : Out :=
  match (s.ctx t).waiting with
  | some w => .next (if decide (s.power.phase = .run) && s.waitDue w then s.wakeArray.endWait t 0 true false else s)
  | none => .next s

end Sys2Proof.Machine
end

