-- ==== Sys2Proof/Machine/Loader.lean ====
section
/-! DEFINITION. What the loaders do at a start with a verified PATCH, charter and recipes: patch RAM (R168, R169), open-region
words (R166, R167), region images (R279, R280) and the Headwater sections (R90, R195). -/

namespace Sys2Proof.Machine

/-! ### Sluice -/

/-- The patch RAM and patch map of a PATCH (R168). -/
def Sluice.applyPatch (x : Sluice) (es : List PatchEntry) : Sluice :=
  { x with
    patchRam := es.foldl (fun ram e => (List.range 4).foldl (fun ram j =>
      ram.set (Fin.ofNat 256 (4 * e.block + j)) (e.words.getD j 0)) ram) x.patchRam,
    map := es.map (fun e => (BitVec.ofNat 12 e.addr, BitVec.ofNat 6 e.block)) }

/-- The words of a tenant's type-03h sections with their offsets within the allotment. -/
def openWords (ss : List Section) : List (Nat × MicroWord) :=
  (ss.filter (fun x => decide (x.type = 3))).flatMap (fun x =>
    ((microOf x.payload).mapIdx (fun i w => (x.addr + i, w))))

/-- Table SL-5 for the word at offset `off` of an allotment, in ascending code. A SEQ 00b target in ROM is code 0Ah, any
other target outside the allotment is code 06h (log 66, DEDUCED). -/
def openTests (base len off : Nat) (w : MicroWord) : List (Bool × Nat) :=
  let inside (a : Nat) : Bool := decide (0xc00 + base ≤ a) && decide (a < 0xc00 + base + len)
  let ts := targetsOf w
  let a := 0xc00 + base + off
  let t06 := match mwSeq w with
    | 0 => ts.all (fun t => decide (t < 0xc00) || inside t)
    | 2 => ts.all (fun t => decide (t < 0xc00) || inside t) && inside (a + 1)
    | _ => true
  let t07 := mwSeq w ≠ 2 || ts.all (fun t => decide (0xc00 ≤ t) || romListed t)
  let t0a := mwSeq w ≠ 0 || ts.all (fun t => decide (0xc00 ≤ t))
  let ws := wordTests w
  ws.take 5 ++ [(t06, 0x06), (t07, 0x07)] ++ ws.drop 5 ++ [(decide (off < len), 0x09), (t0a, 0x0a)]

/-- The failing word of lowest offset, with its lowest code (R167). -/
def openRefusal (base len : Nat) (ws : List (Nat × MicroWord)) : Option (Nat × Nat) :=
  ws.foldl (fun best x =>
    match firstFail (openTests base len x.1 x.2) with
    | none => best
    | some code =>
      match best with
      | none => some (x.1, code)
      | some b => if x.1 < b.1 ∨ (x.1 = b.1 ∧ code < b.2) then some (x.1, code) else some b) none

/-- The open-region step for tenant `t`: its allotment, and its words or their refusal. -/
def State.loadOpen (s : State) (t : Ctx) (r : TenantRecord) (ss : List Section) : State :=
  let ws := openWords ss
  match openRefusal r.slBase r.slLen ws with
  | some (off, code) =>
    let s := { s with
      sluice := { s.sluice with refusedBy := s.sluice.refusedBy ||| (1#16 <<< t.val), refuse := some (t, off, code) },
      lock := { s.lock with idle := s.lock.idle ||| (1#16 <<< t.val) } }
    s.c1 0x4c 0xff (code * 256 + t.val) none
  | none =>
    { s with sluice := { s.sluice with
        openRegion := ws.foldl (fun m x => Mem.set neutral m (r.slBase + x.1) x.2) s.sluice.openRegion,
        loaded := s.sluice.loaded.set t (((List.range r.slLen).filter (fun i => ws.any (fun x => decide (x.1 = i)))).length) } }

/-! ### Meander -/

/-- A section's region, slot and kind. -/
def Section.target (x : Section) : Region × BitVec 2 × Bool :=
  if x.type = 4 then (Fin.ofNat 16 x.addr, 0, true) else (Fin.ofNat 16 (x.addr / 4), BitVec.ofNat 2 x.addr, false)

/-- The first image of a tenant that fails, in the order of its sections (log 65, DEDUCED). -/
def imageRefusal (owner : Fin 16 → Option Ctx) : List Section → Option (Section × Nat)
  | [] => none
  | x :: xs =>
    match firstFail (imageTests owner x.target.1 x.target.2.2 x.payload) with
    | some code => some (x, code)
    | none => imageRefusal owner xs

/-- A region configured from a full image (R280): every flip-flop at INIT, and the tree as bytes 8 and 9 give it. -/
def RegionSt.configure (x : RegionSt) (im : Image) : RegionSt :=
  { x with state := .running, image := im, full := true, ffs := im.inits, source := im.source, divM1 := im.divM1 }

/-- A run-time image goes into its slot of EB1 (R280). -/
def State.placeSlot (s : State) (r : Region) (slot : BitVec 2) (b : List Byte) : State :=
  let at_ := (slotAt r slot).word
  let eddy := (imageUnits b).zipIdx.foldl (fun m x =>
    Mem.set 0 (Mem.set 0 m (at_ + 2 * x.2) (x.1.extractLsb' 0 36)) (at_ + 2 * x.2 + 1) (x.1.extractLsb' 36 36)) s.eddy
  { s with eddy := eddy }.modRegion r (fun y => { y with slots := y.slots ||| (1#4 <<< slot.toNat) })

/-- The images of tenant `t` placed in its regions and in EB1. -/
def State.placeImage (s : State) (x : Section) : State :=
  let g := x.target
  if g.2.2 then s.modRegion g.1 (fun y => y.configure (imageOf x.payload)) else s.placeSlot g.1 g.2.1 x.payload

/-- The Meander step for tenant `t` (R279). -/
def State.loadImages (s : State) (t : Ctx) (ss : List Section) : State :=
  let xs := ss.filter (fun x => decide (x.type = 4) || decide (x.type = 5))
  match imageRefusal (fun r => (s.region r).owner) xs with
  | some (x, code) =>
    let g := x.target
    let s := { s with
      mea := { s.mea with refuse := some (t, g.1, g.2.1, g.2.2, code) },
      lock := { s.lock with idle := s.lock.idle ||| (1#16 <<< t.val) } }
    s.c1 0x4c (BitVec.ofNat 8 g.1.val) (code * 256 + t.val + 16 * g.2.1.toNat + (if g.2.2 then 64 else 0)) none
  | none => xs.foldl (fun s x => s.placeImage x) s

/-- The release of GSR (R280): every running region's outputs show its cells at INIT. -/
def State.releaseGsr (s : State) : State :=
  { s with mea := { s.mea with
      cfgDone := true,
      regions := Vector.ofFn (fun r =>
        let x := s.region r
        if x.state = .running then { x with outs := tracksOf x.image (cellsOut x.image (x.inputs (s.borderInputs r)) x.ffs) } else x) } }

/-! ### Headwater sections -/

/-- Write one word of the Pool or Eddy before RUN: no mailbox flag outlasts the start. -/
def State.loadWord (s : State) (p : Phys) (w : Word) : State :=
  if p.eddy then { s with eddy := Mem.set 0 s.eddy p.word w } else { s with pool := Mem.set 0 s.pool p.word w }

/-- A type-01h section: words at tenant addresses through the writable windows. -/
def State.loadWords (s : State) (t : Ctx) (x : Section) : State :=
  ((wordsOf x.payload).mapIdx (fun i w => (i, w))).foldl (fun s e =>
    match s.translate t (BitVec.ofNat 18 (x.addr + e.1)) true with
    | some p => s.loadWord p e.2
    | none => s) s

/-- A type-02h section: X RAM and Y RAM. -/
def Context.loadRam (c : Context) (x : Section) : Context :=
  ((wordsOf x.payload).mapIdx (fun i w => (x.addr + i, w))).foldl (fun c e => c.setRam (e.1 / 2048) (e.1 % 2048) e.2) c

/-- One context-start pair: every RW and RWL field (R195) but the windows WIN0 to WIN3, which the Lock alone writes (R12, R235;
log 60, DEDUCED). LCTL opens levels at once, and a write of BURST is ignored. -/
def Context.startPair (c : Context) (r : Nat) (v : Word) : Context :=
  if 0x2d ≤ r ∧ r ≤ 0x30 then c
  else
    match r with
    | 0x02 => { c with ben := v.extractLsb' 0 7 }
    | 0x03 => { c with bellv := v.extractLsb' 0 19 }
    | 0x04 => { c with bepc := v.extractLsb' 0 19 }
    | 0x19 => { c with arch := { c.arch with levels := (v.extractLsb' 0 2).toNat } }
    | 0x31 => { c with mstart := v.extractLsb' 0 8 }
    | 0x32 => { c with pc0 := v.extractLsb' 0 19 }
    | 0x33 => { c with cap := { c.cap with arms := v.getLsbD 1, len := v.extractLsb' 8 28 } }
    | _ => { c with arch := c.arch.writeReg r v }

/-- The sections of tenant `t`'s recipe for Headwater: words first, then the context start. -/
def State.loadHeadwater (s : State) (t : Ctx) (ss : List Section) : State :=
  (ss.filter (fun x => decide (x.type ≠ 6)) ++ ss.filter (fun x => decide (x.type = 6))).foldl (fun s x =>
    match x.type with
    | 1 => s.loadWords t x
    | 2 => s.modCtx t (fun c => c.loadRam x)
    | 6 => s.modCtx t (fun c => (pairsOf' x.payload).foldl (fun c e => c.startPair (e.1 % 64) e.2) c)
    | _ => s) s

end Sys2Proof.Machine
end

