-- ==== Sys2Proof/Machine/SocketCode.lean ====
section
/-! DEFINITION. Decoding the socket code network (R20 to R27, R31, Tables SK-4 to SK-9a). Currents are in nanoamperes, voltages in
nanovolts and resistances in milliohms. -/

namespace Sys2Proof.Machine

/-! ### Resistances from currents (R20) -/

/-- `n` more binary digits of the logarithm to base 2 of `x` / 2^32, which lies from 1 to 2. -/
def log2Digits : Nat → Nat → Nat → Nat
  | 0, _, acc => acc
  | n + 1, x, acc =>
    let y := x * x / 2 ^ 32
    if 2 ^ 33 ≤ y then log2Digits n (y / 2) (2 * acc + 1) else log2Digits n y (2 * acc)

/-- The logarithm to base 2 of `a` / `b`, for 0 < `b` ≤ `a`, in 2^-20. -/
def log2Ratio (a b : Nat) : Nat :=
  let r := a * 2 ^ 32 / b
  let k := Nat.log2 r - 32
  k * 2 ^ 20 + log2Digits 20 (r / 2 ^ k) 0

/-- 0.0895 V × log10(`a` / `b`): the rise of a diode's voltage from current `b` to `a` (R20). 26 942 185 nV is 0.0895 V × log10 2. -/
def diodeRise (a b : Nat) : Nat := if b = 0 ∨ a ≤ b then 0 else 26942185 * log2Ratio a b / 2 ^ 20

/-- The current limit of the drive: 15 mA (R19). -/
def driveLimit : Nat := 15000000

/-- A resistance beyond every bound of Table SK-6: what no difference of currents stands for (log 151, DEDUCED). -/
def noConduction : Nat := 10 ^ 15

/-- The resistance of a pass of reading 1 or 2: (1.0 V − ΔVD) / ΔI (R20). -/
def passOhms (p : Pass) : Nat :=
  if driveLimit ≤ p.lower ∨ (p.lower = 0 ∧ 0 < p.upper) then Config.cornerOhms p.upper p.lower
  else if p.upper ≤ p.lower then noConduction
  else (10 ^ 9 - diodeRise p.upper p.lower) * 1000 / (p.upper - p.lower)

/-- One branch in three passes, each the computed resistance in milliohms (R20). -/
structure BranchReading where
  pass0 : Nat
  pass1 : Nat
  pass2 : Nat
  deriving DecidableEq, Repr

/-- The branch of a reading with one branch conducting. -/
def readingBranch (r : Reading) : BranchReading := { pass0 := passOhms r.pass0, pass1 := passOhms r.pass1, pass2 := passOhms r.pass2 }

/-- The forward branch's current at a drive level `dv` above 2.5 V, from its current `i0` there: `n` steps toward
V = I R + VD(I), with the diode's rise as in ΔVD (R20; log 151, DEDUCED). -/
def forwardAt (milliohm i0 dv : Nat) : Nat → Nat
  | 0 => i0
  | n + 1 => Nat.min driveLimit (i0 + (dv - diodeRise (forwardAt milliohm i0 dv n) i0) * 1000 / milliohm)

/-- The zener branch in a pass of reading 3: 1.0 V / ΔI of what remains of the currents at +9.0 V and +8.0 V once the forward
branch's are taken off (R20). -/
def zenerOhms (milliohm : Nat) (one three : Pass) : Nat :=
  let d : Int := (three.upper - forwardAt milliohm one.upper 6500000000 4 : Int)
    - (three.lower - forwardAt milliohm one.upper 5500000000 4 : Int)
  if d ≤ 0 then noConduction else 10 ^ 12 / d.toNat

/-- Table SK-4, in ohms. -/
def codeValues : List Nat :=
  [1000, 1100, 1240, 1370, 1540, 1740, 1910, 2150, 2370, 2670, 2940, 3240, 3650, 4020, 4530, 4990]
  ++ [5620, 6190, 6980, 7680, 8660, 9760, 10700, 12100, 13300, 15000, 16500, 18200, 20500, 22600, 25500, 28700]
  ++ [31600, 34800, 39200, 44200, 48700, 53600, 60400, 68100, 75000, 84500, 93100, 105000, 115000, 130000, 143000, 158000]
  ++ [178000, 200000, 221000, 243000, 274000, 309000, 340000, 383000, 422000, 475000, 523000, 576000, 649000, 715000,
      806000, 887000]

/-- Table SK-5, in ohms. -/
def zenerValues : List Nat := [1000, 1240, 1540, 1910, 2370, 2940, 3650, 4530]

/-- Three times the mean of the passes. -/
def brSum (r : BranchReading) : Nat := r.pass0 + r.pass1 + r.pass2

/-- The zener branch, from reading 3 and reading 1. -/
def readingZener (r : CodeReading) : BranchReading :=
  let m := brSum (readingBranch r.one) / 3
  { pass0 := zenerOhms m r.one.pass0 r.three.pass0, pass1 := zenerOhms m r.one.pass1 r.three.pass1,
    pass2 := zenerOhms m r.one.pass2 r.three.pass2 }

/-- The distance of two numbers. -/
def dist (a b : Nat) : Nat := if a ≤ b then b - a else a - b

/-- Some pass differs from the mean by more than 2 % (R23). -/
def brUnstable (r : BranchReading) : Bool :=
  [r.pass0, r.pass1, r.pass2].any (fun p => decide (2 * (brSum r) < 100 * dist (3 * p) (brSum r)))

/-- The place of the table value within `pct` percent of the mean. -/
def brIndex (r : BranchReading) (values : List Nat) (pct : Nat) : Option Nat :=
  values.findIdx? (fun v => decide (100 * dist (brSum r) (3000 * v) ≤ pct * (3000 * v)))

/-- The class of a branch (Table SK-6, R23): `openAt` in ohms. Log 54, DEDUCED. -/
def brClass (r : BranchReading) (values : List Nat) (pct openAt : Nat) : BranchClass :=
  let k : Option (BitVec 6) := (brIndex r values pct).map (BitVec.ofNat 6)
  if brUnstable r then .unstable k
  else if (brSum r) < 3000 * 500 then .short
  else
    match k with
    | some k => .inTable k
    | none => if 3000 * openAt < (brSum r) then .openCircuit else .outOfTable

def classCode (r : BranchReading) : BranchClass := brClass r codeValues 4 1500000
def classZener (r : BranchReading) : BranchClass := brClass r zenerValues 8 20000

/-- A class under which CODE-FAULT is latched. -/
def BranchClass.bad : BranchClass → Bool
  | .inTable _ => false
  | .openCircuit => false
  | _ => true

/-- The table place read, if any. -/
def BranchClass.index : BranchClass → Option (BitVec 6)
  | .inTable k => some k
  | _ => none

/-- The outcome of Table SK-7 for three classes. A socketless node keeps z as read and has no buddy. Log 53, DEDUCED. -/
def outcomeOf (cf cr cz : BranchClass) : CodeOutcome :=
  let fault : Option Branch :=
    if cf.bad then some .cf else if cr.bad then some .cr else if cz.bad then some .cz else none
  let p : BitVec 6 := cr.index.getD 63
  let z : BitVec 3 := (cz.index.getD 5).extractLsb' 0 3
  match fault with
  | some b => { cf := cf, cr := cr, cz := cz, s := cf.index, p := 0, z := 0, fault := some b }
  | none => { cf := cf, cr := cr, cz := cz, s := cf.index, p := p, z := z, fault := none }

/-- The decoded result of readings 1 to 3. -/
def decodeCode (r : CodeReading) : CodeOutcome := outcomeOf (classCode (readingBranch r.one)) (classCode (readingBranch r.two)) (classZener (readingZener r))

/-- Branch codes (Table FL-5). -/
def branchCode : Branch → Nat
  | .cf => 1
  | .cr => 2
  | .cz => 3

/-- Class and place read, as the detail of Table FL-9 holds them. -/
def BranchClass.detail : BranchClass → Nat
  | .inTable k => k.toNat
  | .short => 0x01ff
  | .openCircuit => 0x02ff
  | .outOfTable => 0x03ff
  | .unstable k => 0x0400 + (match k with
      | some k => k.toNat
      | none => 0xff)

def CodeOutcome.branch (o : CodeOutcome) : Branch → BranchClass
  | .cf => o.cf
  | .cr => o.cr
  | .cz => o.cz

/-- The branch that a SOCKET-DRIFT entry names: the first, in the order CF, CR, CZ, whose class differs. The spec gives this order for
CODE-FAULT alone; for a drift it is the model's choice (log 134, DESIGN CHOICE). -/
def CodeOutcome.firstDiff (a b : CodeOutcome) : Branch := if a.cf ≠ b.cf then .cf else if a.cr ≠ b.cr then .cr else .cz

/-- Class without the place that an unstable branch read: what a re-read compares beside s, p and z (R27). -/
def BranchClass.kind : BranchClass → Nat
  | .inTable _ => 0
  | .short => 1
  | .openCircuit => 2
  | .outOfTable => 3
  | .unstable _ => 4

/-- Two decoded results agree: s, p and z, and each branch's class (R27). Log 152, DEDUCED. -/
def CodeOutcome.agrees (a b : CodeOutcome) : Bool :=
  decide (a.s = b.s) && decide (a.p = b.p) && decide (a.z = b.z) && decide (a.cf.kind = b.cf.kind)
  && decide (a.cr.kind = b.cr.kind) && decide (a.cz.kind = b.cz.kind)

/-- The buddies that z[1:0] names from the node's own index (Table SK-9a); ring neighbours come with a census (R314). -/
def CodeOutcome.buddies (o : CodeOutcome) : List (BitVec 6) :=
  match o.s, (o.z.extractLsb' 0 2).toNat with
  | some s, 1 => [s ^^^ 1]
  | some s, 2 => [s ^^^ 32]
  | _, _ => []

/-- The bytes s, p, z of Table FL-5. -/
def spzBytes (s : Option (BitVec 6)) (p : BitVec 6) (z : BitVec 3) : List Byte :=
  [(s.map (·.zeroExtend 8)).getD 0xff, p.zeroExtend 8, z.zeroExtend 8]

/-- The value of the CODE entry (Table FL-5). -/
def CodeOutcome.entry (o : CodeOutcome) : List Byte :=
  let outcome : Byte := if o.fault.isSome then 1 else if o.s.isNone then 2 else 0
  let branch : Byte := (o.fault.map (fun b => BitVec.ofNat 8 (branchCode b))).getD 0
  [outcome, branch] ++ spzBytes o.s o.p o.z

end Sys2Proof.Machine
end

