-- ==== Sys2Proof/Machine/Start.lean ====
section
/-! DEFINITION. A start (R48 to R59, R69, R70), taken as one command (log 10, DESIGN CHOICE): the steps of Table SS-2 in their order, from
the reading of CODE to RUN, or dormancy. -/

namespace Sys2Proof.Machine

/-! ### What a start keeps (R49, R50) -/

/-- A port at a start: retrained after a power-on; otherwise its link, its queues and the counters of Table LN-7 that are
held (R309). -/
def PortSt.atStart (p : PortSt) (powerOn : Bool) (now : Nat) : PortSt :=
  if powerOn then { PortSt.fresh with state := .training, trainAt := now + 50 * ms }
  else
    { PortSt.fresh with
      state := p.state, amp24 := p.amp24, master := p.master, relaying := p.relaying, upc := p.upc, downc := p.downc,
      qEvent := p.qEvent, qRelay := p.qRelay, qOwn := p.qOwn, trainAt := p.trainAt, losses := p.losses, only24 := p.only24,
      freeAt := p.freeAt }

/-- The ring engines at a start. -/
def Ring.atStart (r : Ring) (powerOn : Bool) (now : Nat) (bySerial : Bool) : Ring :=
  let form := if bySerial then AddrForm.a else AddrForm.s
  if powerOn then
    { Ring.fresh with
      portA := r.portA.atStart true now, portB := r.portB.atStart true now, form := form, relayAt := now + 150 * ms,
      wire := r.wire }
  else { r with portA := r.portA.atStart false now, portB := r.portB.atStart false now, form := form, tag := 0 }

/-- The instant of a start, from its origin, at which ring time begins (R308) and the main die rails are up (Table SS-2): the first
sampling edge falls there (R123; log 10, DESIGN CHOICE). -/
def startRails : Nat := 60 * ms

/-- Time `took` ns into a start: ring time from zero after a power-on, otherwise running on (R308), and SI from 0 (R123). -/
def Time.atStart (x : Time) (powerOn : Bool) (took : Nat) : Time :=
  let n := (took - startRails) * 96
  { mono := x.mono + took, offset := if powerOn then -((x.mono + startRails : Nat) : Int) else x.offset,
    si := BitVec.ofNat 64 (n / 15625), siFrac := n % 15625, edge := n / 15625 % 40, stretch := 0, step := none }

/-- The Catchment at a start: the next frame of each lane at the border, 192 samples behind (R124). -/
def Catchment.atStart (si : Nat) : Catchment :=
  { Catchment.fresh with
    lanes := Vector.replicate 3 { LaneState.fresh with si := BitVec.ofNat 64 (if si < 192 then 0 else ((si - 192) / 40 + 1) * 40) } }

/-- Keepsake at a start (R49): its records stand; what the engines held of a transfer under way is gone, and the area it
filled is erased before another opens (R327). A sector erase cut off is done again (R62). -/
def Keepsake.atStart (k : Keepsake) (now : Nat) : Keepsake :=
  { k.planErase .findingLedger with
    transfer := none, erasing := !k.area.isEmpty, eraseFrom := now, skipped := 0, wasFull := false, fullTold := false,
    replayWait := !k.ledger.isEmpty, nextEntry := k.persisted + 1 }

/-- The supply and Backwater from a start's origin on: HALE released, the store not yet full and no stop behind it. -/
def Power.atStart (p : Power) (now : Nat) : Power :=
  { p with
    powered := true, phase := .starting, held := [], served := now, startedAt := now, runAt := now, token := false, hale := false,
    storeFull := false, coolSince := none, c4InStop := false, stopCause := .powerOn, stopReason := 0 }

/-- The supply and Backwater at RUN, at `now`: the store is full (R36). A VS that was below the brown-out threshold at the origin has
returned, since the filter's expiry would have ended the start (R66). -/
def Power.atRun (p : Power) (now : Nat) : Power :=
  { p with phase := .run, vs := .good, filter := none, below := none, served := now, runAt := now, token := true, storeFull := true }

/-- The node `took` after a start's origin, with every block at its start values, the new code latched at +45 ms (Table SS-2)
and the previous retained record still standing. -/
def State.newRun (s : State) (i : StartInput) (powerOn : Bool) (took : Nat) (code : CodeOutcome) : State :=
  let r := State.reset
  let origin := s.now
  let now := origin + took
  let nonce := Config.freeNonce s.free
  { r with
    pending := s.pending, free := s.free + 1, time := s.time.atStart powerOn took, ct := .atStart (s.time.atStart powerOn took).si.toNat,
    power := s.power.atStart origin,
    code := { latched := code, latchAt := origin + 45 * ms, drift := false, agree := 0, lastDiff := none },
    net := { r.net with fates := i.fates },
    braid := { r.braid with spareReads := i.spareReads },
    lock := { Lock.fresh with banks := s.lock.banks, charterCtr := s.lock.charterCtr, patchCtr := s.lock.patchCtr, nonce := nonce },
    ks := s.ks.atStart now,
    ring := s.ring.atStart powerOn origin code.s.isNone,
    banks := r.banks.map (fun b => { b with scrubAt := now }),
    mill := { r.mill with buddies := code.buddies, keeperAt := now },
    gauge := { r.gauge with die := s.gauge.die, dieMax := s.gauge.die, bwt := s.gauge.bwt, watching := true },
    faults := { r.faults with interval := now, upsets := i.upsets.map (fun u => (origin + u.1, u.2)) } }

/-! ### Socket record (R31) -/

/-- The record and RELOCATED: an index that differs from the one recorded, or none after having had one. Log 59, DEDUCED. -/
def State.socketRecord (s : State) : State :=
  let old := s.ks.socket.counted.map (·.2)
  let new := s.code.latched.s
  let moved := old.isSome && (if new.isNone then s.code.latched.fault.isNone else decide (old ≠ new))
  let s := { s with mill := { s.mill with recorded := old, relocated := moved } }
  match new with
  | some x =>
    if old = some x then s
    else
      let s := s.usePairs .records 1
      { s with ks := { s.ks with socket := s.ks.socket.write 1 x } }
  | none => s

/-! ### The Lock (Table SS-3) -/

/-- T0's record in house mode (R57). -/
def houseTenant : TenantRecord :=
  let w (base phys : Nat) : Window :=
    { base := BitVec.ofNat 7 base, len := 28, valid := true, writable := true, eddy := false, shared := false,
      phys := BitVec.ofNat 10 phys }
  { recipeKey := 0, rootKey := 0, minVersion := 0, strips := 0xffff, regions := 0, slBase := 0, slLen := 0, quantum := 16,
    defClass := 1, windows := #v[w 0x10 0, w 0x2c 256, w 0x48 512, w 0x64 768] }

/-- The tenant records in force: the charter's, or T0's of house mode. -/
def tenantRecords : Option Charter → Vector (Option TenantRecord) 16
  | some c => c.tenants
  | none => (Vector.replicate 16 none).set 0 (some houseTenant)

/-- A bit for each tenant that `f` selects. -/
def tenantBits (f : Ctx → Bool) : BitVec 16 := allCtx.foldl (fun m t => if f t then m ||| (1#16 <<< t.val) else m) 0

/-- The digest and epoch of the bundle in force. -/
def Cand.epoch (c : Cand) : BitVec 7 := BitVec.ofNat 7 (bdEpoch c.bundle)

/-- Commit, step 7: a verified ENROL is fused, and the counters rise to the epochs newly applied. -/
def Lock.commit (l : Lock) (v : Verified) (loop : Bool) : Lock :=
  let ch := v.charter.bind Cand.charter
  { l with
    banks := match v.enrol with
      | some e => l.banks ++ [e]
      | none => l.banks,
    enrolFused := v.enrol.isSome, enrolB := v.enrolB,
    patchCtr := v.patch.elim l.patchCtr Cand.epoch, charterCtr := v.charter.elim l.charterCtr Cand.epoch,
    keys := sessionKeys ch l.nonce, charter := ch, house := ch.isNone,
    charterEpoch := v.charter.elim 0 Cand.epoch, charterDig := v.charter.elim 0 (fun c => bdDigest c.bundle),
    charterB := v.charter.elim false (·.slotB), patchEpoch := v.patch.elim 0 Cand.epoch,
    patchB := v.patch.elim false (·.slotB), patchOn := v.patch.isSome, patchNone := v.patchNone, restartLoop := loop,
    charterLost := v.charterLost,
    idle := tenantBits (fun t => match ch with
      | some c => c.tenants[t].isSome && v.recipes[t].isNone
      | none => false) }

/-- VERIFY entries for every outcome other than success (R55, Table FL-9). -/
def State.recordVerify (s : State) (gs : List VGroup) : State :=
  (gs.filter (fun g => decide (g.outcome ≠ 0))).foldl (fun s g =>
    s.c1 0x4a (BitVec.ofNat 8 g.step) (g.outcome * 256 + g.code) none) s

/-! ### Grants -/

/-- The tenant that a mask of its record grants resource `k`. -/
def grantee (recs : Vector (Option TenantRecord) 16) (mask : TenantRecord → BitVec 16) (k : Nat) : Option Ctx :=
  allCtx.find? (fun t => recs[t].elim false (fun r => (mask r).getLsbD k))

/-- Contexts, strips, labels, classes, regions and allotments as the records give them. -/
def State.grantAll (s : State) : State :=
  let recs := tenantRecords s.lock.charter
  let label (t : Ctx) : BitVec 4 := recs[t].elim 0 (fun r => BitVec.ofNat 4 r.defClass)
  { s with
    ctxs := Vector.ofFn (fun t =>
      match recs[t] with
      | some r => { Context.fresh with wins := r.windows, qwgt := BitVec.ofNat 5 r.quantum }
      | none => Context.fresh),
    braid := { s.braid with strips := Vector.ofFn (fun k =>
      let o := grantee recs (·.strips) k.val
      StripState.fresh k o (o.elim 0 label)) },
    weir := Weir.fresh (classRecords s.lock.charter) (Vector.ofFn label) s.now,
    sluice := { s.sluice with
      base := Vector.ofFn (fun t => recs[t].elim 0 (·.slBase)), len := Vector.ofFn (fun t => recs[t].elim 0 (·.slLen)) },
    mea := { s.mea with regions := s.mea.regions.mapFinIdx (fun r x h =>
      { x with owner := grantee recs (·.regions) r }) } }

/-- The NIs to which the routes of NI `n` are valid as a requester (Table TR-1). -/
def routesTo (n : Nat) : List Nat :=
  let mem := [0x08, 0x09, 0x0a, 0x0b, 0x0c]
  if n < 4 then mem ++ [0x17]
  else if n < 8 then mem
  else
    match n with
    | 0x0d => [0x12, 0x13, 0x15, 0x17]
    | 0x0e => mem
    | 0x0f => mem
    | 0x10 => [0x0c, 0x11, 0x16, 0x12]
    | 0x11 => [0x0c, 0x15, 0x12, 0x10]
    | 0x12 => List.range 24
    | 0x13 => List.range 24
    | 0x14 => mem ++ [0x12]
    | 0x15 => [0x12, 0x11, 0x0c]
    | 0x16 => [0x10, 0x13, 0x0d]
    | 0x17 => List.range 24
    | _ => []

/-- Memory destinations PG0 to PG3 and ED, and the NIs that fetch with RDI and so take snoops (R239). -/
def isMem (n : Nat) : Bool := decide (8 ≤ n) && decide (n ≤ 12)
def fetches (n : Nat) : Bool := decide (n < 4) || decide (n = 0x14)

/-- Entry `e` of the route table of NI `n` (R234). TMO is 101b toward KS and 010b elsewhere (log 63, DEDUCED). -/
def routeEntry (n : NiId) (e : Nat) : Route :=
  if h : e < 24 then
    let ok := decide (e ≠ n.val) && ((routesTo n.val).contains e || (routesTo e).contains n.val)
    if e = n.val then Route.none
    else
      { hops := BitVec.ofNat 21 (packHops 7 (routeHops n ⟨e, h⟩)), valid := ok, tmo := if e = 0x15 then 5 else 2,
        snoop := ok && isMem n.val && fetches e }
  else Route.none

/-- The route tables (R234). -/
def State.writeRoutes (s : State) : State :=
  { s with net := { s.net with routes := Vector.ofFn (fun n => Vector.ofFn (fun e => routeEntry n e.val)) } }

/-! ### Calibration (R131) -/

/-- A gain more than 5 % from the record's. -/
def gainOff (measured : Nat) (rec_ : Word) : Bool := decide (5 * rec_.toNat < 100 * dist measured rec_.toNat)

def Coeff.nominal (calix : BitVec 64) : Coeff :=
  { Coeff.zero with k16 := 20000000, k64 := 80000000, calsrc := 4, calix := calix }

/-- The manufacture record (R60, R131): absent where no copy is valid, or where an entry of its twelve channels is not well formed in
both ranges. -/
def Keepsake.record (ks : Keepsake) : Option (Vector Coeff 12) :=
  match ks.manufacture.counted with
  | some (_, v) => if v.toList.all (fun e => e.ok16 && e.ok64) then some (v.map (·.coeff)) else none
  | none => none

/-- The coefficients of a channel, and CAL-FAIL. K and OFS come from the measurement and TCK, TCO, TREF, STEXP, EQ and CX from the
record; a gain off in one range keeps the record's gains of both: the model's choice of how the two combine. Log 11, DESIGN CHOICE. Log
58, DEDUCED. Log 136, DESIGN CHOICE. -/
def calibrate (rec_ : Option Coeff) (m : ChanMeas) (calix : BitVec 64) : Coeff × Bool :=
  match rec_ with
  | none => (Coeff.nominal calix, false)
  | some r =>
    let fail := gainOff m.gain16 r.k16 || gainOff m.gain64 r.k64
    let c := { r with ofs16 := BitVec.ofInt 36 m.ofs16, ofs64 := BitVec.ofInt 36 m.ofs64, calix := calix }
    if fail then ({ c with calsrc := 2 }, true)
    else ({ c with k16 := BitVec.ofNat 36 m.gain16, k64 := BitVec.ofNat 36 m.gain64, calsrc := 1 }, false)

/-- Calibration of the twelve channels, with its C1 entries. -/
def State.calibrateAll (s : State) (meas : Vector ChanMeas 12) : State :=
  let r (ch : Chan) : Coeff × Bool := calibrate (s.ks.record.map (fun v => v[ch])) meas[ch] s.time.si
  let none' := s.ks.record.isNone
  let s := { s with ct := { s.ct with
    coeffs := Vector.ofFn (fun ch => (r ch).1), calDone := true,
    chans := Vector.ofFn (fun ch => { s.chan ch with calFail := (r ch).2, calNone := none' }) } }
  let s := (allChans.filter (fun ch => (r ch).2)).foldl (fun s ch => s.c1 0x47 (BitVec.ofNat 8 ch.val) 0x0100 none) s
  if none' then s.c1 0x47 0xff 0x0200 none else s

/-! ### RUN -/

/-- The sections of the recipe that verified for tenant `t`. -/
def Verified.sections (v : Verified) (t : Ctx) : List Section :=
  ((v.recipes[t].bind (fun c => openContent c.bundle)).bind recipeSections).getD []

def State.isIdle (s : State) (t : Ctx) : Bool := s.lock.idle.getLsbD t.val

/-- The loads of Sluice and Meander (Table SS-2): an idle tenant's sections are not loaded. Log 64, DEDUCED. -/
def State.loadFabric (s : State) (v : Verified) : State :=
  let recs := tenantRecords s.lock.charter
  let s := allCtx.foldl (fun s t =>
    match recs[t] with
    | some r => if v.recipes[t].isSome then s.loadOpen t r (v.sections t) else s
    | none => s) s
  let s := allCtx.foldl (fun s t =>
    if v.recipes[t].isSome && !s.isIdle t then s.loadImages t (v.sections t) else s) s
  s.releaseGsr

/-- T0 runs the Larkor base recipe: in house mode, or idle (R57, R58), which claims auto on every channel (R128). Its words are not given: it starts at a free address
(log 61, DESIGN CHOICE). -/
def State.baseRecipe (s : State) : State :=
  let (n, s) := s.takeFree
  let s := s.modCtx 0 (fun c => { c with state := .ready, pc := BitVec.ofNat 19 (Config.freeNat n 1) })
  let s := allChans.foldl (fun s ch => s.writeClaim 0 ch 1) s
  { s with modes := { s.modes with req := s.modes.req.set 0 3 } }

/-- A tenant whose recipe runs: its sections, its context start, its request mask (R98) and its first instruction. -/
def State.runRecipe (s : State) (t : Ctx) (ss : List Section) : State :=
  let s := (s.loadHeadwater t ss).modCtx t (fun c => { c with state := .ready, pc := c.pc0 })
  { s with modes := { s.modes with req := s.modes.req.set t ((s.ctx t).mstart &&& 0x9f) } }

/-- The contexts released at RUN, and ACT. -/
def State.releaseContexts (s : State) (v : Verified) : State :=
  let runs (t : Ctx) : Bool := v.recipes[t].isSome && !s.isIdle t
  let s := { s with lock := { s.lock with
    recipeIn := tenantBits runs, recipeB := tenantBits (fun t => runs t && v.recipes[t].elim false (·.slotB)),
    versions := Vector.ofFn (fun t => if runs t then v.recipes[t].elim 0 (fun c => BitVec.ofNat 16 (bdVersion c.bundle)) else 0) } }
  let s := allCtx.foldl (fun s t => if runs t then s.runRecipe t (v.sections t) else s) s
  let s := if runs 0 then s else s.baseRecipe
  let s := { s with modes := { s.modes with act := s.actOf } }
  s.planProof

/-- The first scheduled PROOF window (R109). -/
def State.firstProof (s : State) : State :=
  let x := (s.code.latched.s.getD 0).toNat
  { s with modes := { s.modes with dueAt := s.now + (600 + 50 * x) * sec } }

/-! ### The start report (R325, Table FL-5), and the refusals of the stop before (R71) -/

/-- The retained record's entry: cause, count, s, p, z. -/
def Retained.entry (r : Retained) : List Byte := [r.cause.code, BitVec.ofNat 8 r.count] ++ spzBytes r.s r.p r.z

/-- CTCAL [23:0]. -/
def State.calBytes (s : State) : List Byte :=
  let bits (f : Channel → Bool) : Nat := allChans.foldl (fun n ch => n + if f (s.chan ch) then 2 ^ ch.val else 0) 0
  bytesBE (bits (·.calFail) + 4096 * bits (·.calNone)) 3

def State.writeReport (s : State) (old : Retained) (gs : List VGroup) : State :=
  let moved := if s.mill.relocated then
      [sysEntry 0x0005 [(s.mill.recorded.getD 0).zeroExtend 8, (s.code.latched.s.map (·.zeroExtend 8)).getD 0xff]]
    else []
  { s with
    ks := { s.ks with toReport := [] },
    find := { s.find with waiting := s.find.waiting ++ s.ks.toReport.map (fun x => (0xf4, x.entry)), report :=
      [sysEntry 0x0002 old.entry, sysEntry 0x0003 (gs.flatMap VGroup.bytes), sysEntry 0x0004 s.code.latched.entry] ++ moved
      ++ [sysEntry 0x0006 s.calBytes] } }

/-! ### Starts -/

/-- The latched code's own fault and the retained record, written to the ledger at a start (R24, R69). -/
def State.recordStart (s : State) (old : Retained) : State :=
  let s := s.c1 0x4f old.cause.code (old.count * 256) none
  match s.code.latched.fault with
  | some b => s.c1 0x49 (BitVec.ofNat 8 (branchCode b)) (s.code.latched.branch b).detail none
  | none => s

/-- The retained record keeps this start's s, p and z (Table SS-6). -/
def State.retain (s : State) : State :=
  let c := s.code.latched
  { s with power := { s.power with retained := { s.power.retained with s := c.s, p := c.p, z := c.z } } }

/-- Dormancy (R70): the node relays, with HALE released, until Backwater loses power. -/
def State.goDormant (s : State) : State :=
  { s with power := { s.power with phase := .dormant, token := false, hale := false } }

/-- FUSE-FAULT (Table SS-3, step 1): recorded and persisted, GOING with cause FUSE, and dormancy. Log 55, DEDUCED. -/
def State.fuseDormant (s : State) : State :=
  let s := (s.recordVerify [{ step := 1, slot := 0xff, kind := 0xff, tenant := 0xff, code := 0, outcome := voFuse }]).writeAllFaults
  let s := s.sendGoing .fuse 0
  ({ s with power := { s.power with retained := { s.power.retained with cause := .fuse } } }).goDormant

/-- The spare strips that fail their parity check at the start (R155). -/
def State.checkSpares (s : State) (bad : BitVec 16) : State :=
  (allStrips.filter (fun k => bad.getLsbD k.val && (s.strip k).spare)).foldl (fun s k => s.spareOffline k) s

/-- The first `n` steps of the commit (Table SS-3, step 7): a verified ENROL is fused, the counters advance, the socket record is
written. Each step is done whole: an OTP write begun completes on stored energy. -/
def State.commitPart (s : State) (v : Verified) (n : Nat) : State :=
  let l := s.lock
  let done := l.commit v false
  let s := if 1 ≤ n then { s with lock := { l with banks := done.banks } } else s
  let s := if 2 ≤ n then { s with lock := { s.lock with charterCtr := done.charterCtr, patchCtr := done.patchCtr } } else s
  if 3 ≤ n then s.socketRecord else s

/-- A start that stands still before RUN (R54, R66): the code is latched, and `n` steps of the commit are done, which begins only once
the hold-up store is full (Table SS-2). -/
def State.standStill (s : State) (i : StartInput) (powerOn loop : Bool) (n : Nat) : State :=
  let s := (s.newRun i powerOn 0 (decodeCode i.code)).retain
  let s := s.commitPart (verify s.lock s.ks loop) n
  { s with power := { s.power with storeFull := decide (0 < n) } }

/-- A start from its origin to RUN, or dormant (R51); `loop` when a restart has brought the count to 3 (R70). The commit comes once
the hold-up store is full (Table SS-2, R36). -/
def State.startToRun (s : State) (i : StartInput) (powerOn loop : Bool) : State :=
  let old := s.power.retained
  let s := (s.newRun i powerOn i.took (decodeCode i.code)).retain
  let s := { s with power := s.power.atRun s.now }
  if i.fuseFault then (s.recordStart old).fuseDormant
  else
    let v := verify s.lock s.ks loop
    let s := { s with lock := s.lock.commit v loop }
    let s := ((s.grantAll.socketRecord.recordStart old).recordVerify v.groups).checkSpares i.badSpares
    let s := (s.writeRoutes)
    let s := match v.patch.bind (fun c => openContent c.bundle) with
      | some c => { s with sluice := s.sluice.applyPatch (patchEntries c) }
      | none => s
    let s := (s.loadFabric v).calibrateAll i.meas
    (s.firstProof.releaseContexts v).writeReport old v.groups

/-- A start: to RUN, or to where it stands still. -/
def State.start (s : State) (i : StartInput) (powerOn loop : Bool) : State :=
  match i.stalls with
  | some n => if i.fuseFault then s.startToRun i powerOn loop else s.standStill i powerOn loop n.val
  | none => s.startToRun i powerOn loop

end Sys2Proof.Machine
end

