-- ==== Sys2Proof/Machine/Supply.lean ====
section
/-! DEFINITION. Supply, stops and restarts (R34 to R39, R48, R64 to R70, R340, R343), the run token (R16) and the re-reads of
the socket code (R27). -/

namespace Sys2Proof.Machine

/-! ### Starts and what leads to them -/

/-- POWER_ON (R48): VS rises through the start threshold with Backwater unpowered. A power-on clears the restart count, and
no s, p and z of a previous start stand (Table SS-6). -/
def execPowerOn (i : StartInput) (s : State) : Out :=
  if s.power.powered then .next s
  else
    let s := { s with power := { s.power with
      vs := .good, retained := { cause := .powerOn, count := 0, restarts := [], s := none, p := 0, z := 0, seq := 0 } } }
    .next (s.start i true false)

/-- A watchdog or C4 restart counts within the last 600 s (R70). Log 93, DEDUCED. -/
def State.countRestart (s : State) : State :=
  let rs := s.now :: s.power.retained.restarts.filter (fun x => decide (s.now < x + 600 * sec))
  { s with power := { s.power with retained := { s.power.retained with restarts := rs, count := Nat.min 4 rs.length } } }

/-- The restart count as it stands now: an older restart leaves it. -/
def State.ageRestarts (s : State) : State :=
  let rs := s.power.retained.restarts.filter (fun x => decide (s.now < x + 600 * sec))
  { s with power := { s.power with retained := { s.power.retained with restarts := rs, count := Nat.min 4 rs.length } } }

/-- A restart counted by R70: a count of 4 makes the node dormant, and any other starts it. -/
def State.countedStart (s : State) (i : StartInput) : State :=
  let s := s.countRestart
  if 4 ≤ s.power.retained.count then s.goDormant else s.start i false (decide (s.power.retained.count = 3))

/-- A start that counts no restart: a count that already stands at 3 sets nothing aside (R70). -/
def State.plainStart (s : State) (i : StartInput) : State := s.ageRestarts.start i false false

/-! ### Brown-out -/

/-- The phases in which the brown-out filter runs: RUN, and a start before RUN (R39, R66). -/
def Power.filters (p : Power) : Bool := decide (p.phase = .run) || decide (p.phase = .starting)

/-- BROWN_OUT_THRESHOLD (R39): VS falls below the brown-out threshold; in RUN and before it the filter starts. The instant of the
crossing is kept from the store's last charging on (R38, R65). -/
def execBrownOutThreshold (s : State) : Out :=
  if s.power.powered = false ∨ s.power.vs = .belowBrownOut then .next s
  else
    let s := { s with power := { s.power with vs := .belowBrownOut, below := some (s.power.below.getD s.now) } }
    if s.power.filters = true ∧ s.power.filter = none then .next { s with power := { s.power with filter := some s.now } }
    else .next s

/-- A ring port without power. -/
def PortSt.unpowered (_ : PortSt) : PortSt := PortSt.fresh

/-- The main die without power: no context stands and no register is read. Log 94, DESIGN CHOICE. -/
def State.mainDieOff (s : State) : State :=
  { s with
    power := { s.power with token := false, hale := false },
    ctxs := s.ctxs.map (fun c => { c with state := .idle, waiting := none, sop := none, results := [] }),
    units := s.units.map (fun u => { u with ctx := none, swapPend := false, buffer := [], fills := [], ifill := none }),
    net := { s.net with
      tags := [], waits := [], snooping := [], heldAck := [], flushing := Vector.replicate 24 0, draining := Vector.replicate 24 0 } }

/-- The filter expires: held loss events are dropped. In RUN it is D of a brown-out stop (R64); before RUN there is no stop: the main
die powers down, and the ports relay until VS decides (R66). -/
def State.filterExpires (s : State) : State :=
  let s := { s with power := { s.power with filter := none, held := [] } }
  if s.power.phase = .starting then
    let s := s.mainDieOff
    { s with power := { s.power with phase := .waitSupply } }
  else s.decideStop .brownOut 0

/-- BROWN_OUT_DIP_END (R39, R373): VS returns before the filter expires, and the held loss events are acted on at once. The filter
lasts 11 ms at most (Table EL-2): after a longer dip it has expired first. Log 50, DEDUCED. -/
def execBrownOutDipEnd (s : State) : Out :=
  match s.power.filter with
  | some x =>
    if s.passed x (11 * ms + 1) then
      let s := s.filterExpires
      .next { s with power := { s.power with vs := .good } }
    else
      let held := s.power.held
      let s := { s with power := { s.power with vs := .good, filter := none, below := none, held := [] } }
      .next (held.foldl (fun s h => s.actHeld h) s)
  | none => .next s

/-- BROWN_OUT_FILTER_EXPIRY (R64, R66): 10 ms to 11 ms after the crossing. -/
def execBrownOutFilterExpiry (s : State) : Out :=
  match s.power.filter with
  | some x => if s.passed x (10 * ms) then .next s.filterExpires else .next s
  | none => .next s

/-- VS_RETURN_ABOVE_BROWN_OUT (R65): after a stop, back above the brown-out threshold but not through the start threshold. -/
def execVsReturnAboveBrownOut (s : State) : Out :=
  if s.power.powered ∧ s.power.vs = .belowBrownOut ∧ s.power.filter = none then
    .next { s with power := { s.power with vs := .between } }
  else .next s

/-- RETURN_AFTER_BROWN_OUT (Table SS-1): VS rises through the start threshold with Backwater still powered. After a brown-out
stop the start follows; during the C4 wait it follows no sooner than D + 10 s. A stop under way runs to its end first. -/
def execReturnAfterBrownOut (i : StartInput) (s : State) : Out :=
  if s.power.powered = false ∨ s.power.vs = .good ∨ s.power.filter.isSome then .next s
  else
    let s := { s with power := { s.power with vs := .good } }
    match s.power.phase with
    | .waitSupply => .next (s.plainStart i)
    | .waitC4 => if s.passed s.power.decidedAt (10 * sec) then .next (s.countedStart i) else .next s
    | _ => .next s

/-- The hold-up store was full when VS fell: it is by +400 ms (R36, R38). -/
def Power.storeHeld (p : Power) : Bool :=
  p.storeFull || p.below.elim false (fun x => decide (p.startedAt + 400 * ms ≤ x))

/-- The least time for which a full store carries the node: 60 ms from the crossing through a brown-out stop and after it (R65),
otherwise 30 ms (R38). -/
def Power.holdUp (p : Power) : Nat := if p.phase = .waitSupply ∧ p.stopCause = .brownOut then 60 * ms else 30 * ms

/-- The store may be spent: a full one no sooner than its hold-up time after the crossing; one that was still charging at any time,
also before RUN (R38). A stop runs to its end (R39). -/
def State.storeMaySpend (s : State) : Bool :=
  let p := s.power
  match p.phase with
  | .run => false
  | .stopping => false
  | .starting => !p.storeHeld
  | _ => !p.storeHeld || p.below.elim false (fun x => s.passed x p.holdUp)

/-- STORE_EXHAUSTED (R65): the hold-up store is spent with VS below the threshold; Backwater loses power and the ports drop.
What Backwater held is gone. -/
def execStoreExhausted (s : State) : Out :=
  if s.power.powered ∧ s.power.vs = .belowBrownOut ∧ s.storeMaySpend = true then
    let s := s.mainDieOff
    .next { s with
      power := { s.power with powered := false, phase := .off, vs := .absent, storeFull := false, filter := none, below := none, held := [], coolSince := none },
      ring := { Ring.fresh with wire := s.ring.wire } }
  else .next s

/-! ### The end of a stop -/

/-- The writes of Table SS-5: up to five pages of faults, the refusals of the stop among them (R71), and the stop record. -/
def State.persistStop (s : State) : State :=
  let s := s.writeAllFaults.writeStopRecord
  { s with ks := { s.ks with toReport := s.lock.inStop }, faults := { s.faults with stack := [] } }

/-- What the retained record takes of a stop (R69). -/
def State.retainStop (s : State) : State :=
  { s with power := { s.power with
      retained := { s.power.retained with cause := s.power.stopCause, seq := s.ring.seq } } }

/-- Where a stop leads (R65, R67, R70, Edges of 04): a brown-out waits for VS, a C4 decided in it or in another stop for 10 s, a
thermal stop for the release, and a RESTART starts at once, with the restart count cleared: also within a dip whose filter still runs,
which the store carries (R39). -/
def State.afterStop (s : State) (i : StartInput) : State :=
  let go (p : Phase) : State := { s with power := { s.power with phase := p } }
  match s.power.stopCause with
  | .brownOut => if s.power.vs = .good then s.plainStart i else go .waitSupply
  | .c4 => go .waitC4
  | cause =>
    if s.power.c4InStop then go .waitC4
    else if cause = .thermal then go .waitThermal
    else
      let s := { s with power := { s.power with retained := { s.power.retained with restarts := [], count := 0 } } }
      if s.power.vs = .good ∨ s.power.filter.isSome then s.start i false false
      else { s with power := { s.power with phase := .waitSupply } }

/-- STOP_COMPLETE (R64): the flushes are complete (R243), the page writes end and the main-die rails go off. -/
def execStopComplete (i : StartInput) (s : State) : Out :=
  if s.power.phase = .stopping ∧ s.flushesDone = true then .next (s.persistStop.retainStop.mainDieOff.afterStop i) else .next s

/-- C4_WAIT_EXPIRY (R67): at D + 10 s, with VS good, the C4 restart begins. -/
def execC4WaitExpiry (i : StartInput) (s : State) : Out :=
  if s.power.phase = .waitC4 ∧ s.passed s.power.decidedAt (10 * sec) = true ∧ s.power.vs = .good then .next (s.countedStart i)
  else .next s

/-- THERMAL_RELEASE (R340): Backwater's readings have stayed at 100 degrees or below for 10 s. -/
def execThermalRelease (i : StartInput) (s : State) : Out :=
  match s.power.coolSince with
  | some x =>
    if s.power.phase = .waitThermal ∧ s.passed x (10 * sec) = true ∧ s.power.vs = .good then .next (s.plainStart i) else .next s
  | none => .next s

/-! ### The watchdog -/

/-- Whether the watchdog's time is up (R54, R68): not served for 250 ms, no house verdict 3.5 s after the start's origin, or no RUN
1.5 s after it. -/
def State.watchdogDue (s : State) : Bool :=
  match s.power.phase with
  | .starting => s.passed s.power.startedAt (1500 * ms)
  | .run => s.passed s.power.served (250 * ms) || (s.find.verdictAt.isNone && s.passed s.power.startedAt (3500 * ms))
  | .stopping => s.passed s.power.served (250 * ms) || (s.find.verdictAt.isNone && s.passed s.power.startedAt (3500 * ms))
  | _ => false

/-- WATCHDOG_EXPIRY (R68): the main die is reset at once, with no drain and no flush, and a page program under way may be cut off (R60); Backwater sends GOING with cause WATCHDOG,
and the restart counts. A brown-out filter that runs goes on. -/
def execWatchdogExpiry (i : StartInput) (s : State) : Out :=
  if s.watchdogDue then
    let s := s.sendGoing .watchdog 0
    let s := { s with ks := i.cut.elim s.ks (s.ks.cutOff s.now) }
    let s := { s with power := { s.power with
      held := [], retained := { s.power.retained with cause := .watchdog, seq := s.ring.seq } } }
    .next (s.mainDieOff.countedStart i)
  else .next s

/-- What the supervisor's service asks for (R343): the CK_A PLL that supplies CK_A, CK_N, CK_S and CK_T in lock, and every rail
in its band. -/
def State.clocksGood (s : State) : Bool :=
  s.gauge.pll.getLsbD (if s.gauge.standbyB then 0 else 1) && s.gauge.pll.getLsbD 2 && s.gauge.pll.getLsbD 3
  && s.gauge.pll.getLsbD 4 && decide (s.gauge.rails = 0x1f)

/-- The supervisor is at work: in RUN and through a stop, and in a start from the rails' first being in band on, by +60 ms (R343;
log 10, DESIGN CHOICE). -/
def State.supervises (s : State) : Bool :=
  match s.power.phase with
  | .run => true
  | .stopping => true
  | .starting => s.passed s.power.startedAt startRails
  | _ => false

/-- WATCHDOG_SERVICE (R343). -/
def execWatchdogService (s : State) : Out :=
  if s.supervises = true ∧ s.clocksGood = true then .next { s with power := { s.power with served := s.now } } else .next s

/-! ### C4 faults of clocks, rails and the Lock -/

/-- The place of a PLL in GAPLL and in Table FL-9. -/
def pllIndex : Pll → Nat
  | .ckA1 => 0
  | .ckA2 => 1
  | .ckN => 2
  | .ckS => 3
  | .ckT => 4

/-- The PLL that stands by for the next change of CK_A. -/
def State.standbyPll (s : State) : Pll := if s.gauge.standbyB then .ckA2 else .ckA1

/-- PLL_LOCK_LOSS (R343, R376): of the standby CK_A PLL it counts as CLOCK-STBY and the PLL is tuned again; of CK_S it is C4 once
it has lasted more than 1 ms; of the others it is C4 at once. -/
def execPllLockLoss (p : Pll) (overOneMs : Bool) (s : State) : Out :=
  if s.supervises = false ∨ s.gauge.watching = false then .next s
  else if p = s.standbyPll then .next (s.countFault 0x71 (pllIndex p))
  else if p = .ckS ∧ overOneMs = false then .next s
  else
    let s := { s with gauge := { s.gauge with pll := s.gauge.pll &&& ~~~(1#5 <<< pllIndex p) } }
    .next (s.takeFault 0x61 (BitVec.ofNat 8 (pllIndex p)) 0 none none)

/-- RAIL_OUT_OF_BAND (R343). -/
def execRailOutOfBand (rail : Fin 5) (s : State) : Out :=
  if s.supervises = false ∨ s.gauge.watching = false then .next s
  else
    let s := { s with gauge := { s.gauge with rails := s.gauge.rails &&& ~~~(1#5 <<< rail.val) } }
    .next (s.takeFault 0x62 (BitVec.ofNat 8 rail.val) 0 none none)

/-- LOCK_SELF_CHECK_FAILURE (R352, Table FL-9 code 66h). -/
def execLockSelfCheckFailure (drbg : Bool) (s : State) : Out :=
  if s.supervises then .next (s.takeFault 0x66 (if drbg then 1 else 2) 0 none none) else .next s

/-! ### HALE and the socket code -/

/-- RUN_TOKEN_LAPSE (R16): without a token renewed within 1 ms, HALE is released. Log 67, DEDUCED. -/
def execRunTokenLapse (s : State) : Out :=
  .next { s with power := { s.power with token := false, hale := false } }

/-- Whether a re-read agrees with the latched result. -/
def State.rereadAgrees (s : State) (o : CodeOutcome) : Bool := o.agrees s.code.latched

/-- A re-read that differs (R27): recorded when it begins a drift or differs from the one before it; HALE is released. -/
def State.rereadDiffers (s : State) (o : CodeOutcome) : State :=
  let record := !s.code.drift || !(s.code.lastDiff.elim false o.agrees)
  let b := s.code.latched.firstDiff o
  let s := { s with code := { s.code with drift := true, agree := 0, lastDiff := some o } }
  let s := if record then s.c1 0x48 (BitVec.ofNat 8 (branchCode b)) (o.branch b).detail none else s
  s.decideHale

/-- A re-read that agrees: the second in a row ends a drift. A later re-read that differs differs from it too. -/
def State.rereadSame (s : State) : State :=
  if s.code.drift = false then s
  else if 1 ≤ s.code.agree then
    ({ s with code := { s.code with drift := false, agree := 0, lastDiff := none } }).decideHale
  else { s with code := { s.code with agree := 1, lastDiff := none } }

/-- CODE_REREAD (R27): every 10 s from the latch. -/
def execCodeReread (r : CodeReading) (s : State) : Out :=
  if s.power.phase = .run ∧ s.passed s.code.latchAt (10 * sec) = true then
    let s := { s with code := { s.code with latchAt := s.code.latchAt + 10 * sec } }
    let o := decodeCode r
    .next (if s.rereadAgrees o then s.rereadSame else s.rereadDiffers o)
  else .next s

end Sys2Proof.Machine
end

