-- ==== Sys2Proof/Machine/Weir.lean ====
section
/-! DEFINITION. The Weir's windows and shortfall (R263, R264, R271 to R274). -/

namespace Sys2Proof.Machine

/-- A class at the end of a window: a window over budget counts, the byte counts begin again with the units already performed in the next window, and the largest sample of
the window shows (R264, Table WR-2). -/
def WeirClass.endWindow (c : WeirClass) : WeirClass :=
  let used := c.recd.owner.isSome
  { c with
    overs := Vector.ofFn (fun g => if used && c.overBudget g then satInc c.overs[g] else c.overs[g]),
    bytes := Vector.ofFn (fun g => satAdd 0 c.next[g]), next := Vector.replicate 4 0,
    lmax := BitVec.ofNat 24 (Nat.min c.lcur 0xffffff), lcur := c.lnext, lnext := 0, sfServed := Vector.replicate 4 0 }

/-- The bank cycles that group `g` has lost in the window that ends (R274): those counted, and those of the banks that are
still out of service. -/
def State.lostInWindow (s : State) (g : Group) : Nat :=
  ((groupBanks g).filter (fun b => decide ((s.bank b).state ≠ .active))).foldl
    (fun n b => n + Nat.min 65536 (s.lostCycles b)) s.weir.lostCur[g]

/-- A class has a packet queued or held for the group (R273). -/
def State.waitsFor (s : State) (g : Group) (q : BitVec 4) : Bool :=
  s.net.waits.any (fun p => decide (p.req.qc = q) && decide (p.group = some g))

/-- The declaration at group `g` (R271, R273): counted once a window, every owner of a class with a packet queued or held there is
affected, and R272's service counts from here. -/
def State.declareShort (s : State) (g : Group) : State :=
  let s := { s with weir := { s.weir with
    sf := s.weir.sf ||| (1#4 <<< g.val), grpSf := s.weir.grpSf.set g (satInc s.weir.grpSf[g]),
    classes := s.weir.classes.map (fun c => { c with sfServed := c.sfServed.set g 0 }) } }
  (allClasses.filter (fun q => s.waitsFor g q)).foldl (fun s q => s.underShort q g) s

/-- The condition of R271 has held at the group for the last 4 096 cycles. -/
def State.shareHeld (s : State) (g : Group) : Bool :=
  match s.weir.fullAt[g] with
  | some c => decide (c + 4096 ≤ s.cycle)
  | none => false

/-- The window that ends, and the next one begun. -/
def State.nextWindow (s : State) : State :=
  let lost : Vector (BitVec 18) 4 := Vector.ofFn (fun g => BitVec.ofNat 18 (Nat.min (s.lostInWindow g) 0x3ffff))
  { s with weir := { s.weir with
    classes := s.weir.classes.map WeirClass.endWindow, win := s.weir.win + 1, winAt := s.weir.winAt + windowNs,
    sf := 0, sfPrev := s.weir.sf, grpLost := lost, lostCur := Vector.replicate 4 0, told := Vector.replicate 4 0 } }

/-- WEIR_WINDOW (R263): 65 536 cycles after the window began, the next one begins; a shortfall whose condition has held for the last 4 096
cycles is declared again at once (R271). -/
def execWeirWindow (s : State) : Out :=
  if s.power.phase = .run ∧ s.passed s.weir.winAt windowNs = true then
    .next ((allGroups.filter (fun g => s.shareHeld g)).foldl (fun s g => s.declareShort g) s.nextWindow)
  else .next s

/-- SHORTFALL_DECLARATION (R271): at most once per group and window, when the shares of classes in budget have stood full for 4 096
cycles and that of `cls` still does. -/
def execShortfallDeclaration (g : Group) (cls : BitVec 4) (s : State) : Out :=
  if s.power.phase = .run ∧ s.weir.sf.getLsbD g.val = false ∧ s.shareHeld g = true ∧ s.shareFull g cls = true then
    .next (s.declareShort g)
  else .next s

end Sys2Proof.Machine
end

