-- ==== Sys2Proof/Machine/Dispatch.lean ====
section
/-! DEFINITION. The one arm per command: each a direct call of that command's meaning. -/

namespace Sys2Proof.Machine

def exec (i : Instr) (s : State) : Host.Outcome State Fault Refusal :=
  match i with
  | .powerOn inp => Sys2Proof.Machine.execPowerOn inp s
  | .brownOutThreshold => Sys2Proof.Machine.execBrownOutThreshold s
  | .brownOutDipEnd => Sys2Proof.Machine.execBrownOutDipEnd s
  | .brownOutFilterExpiry => Sys2Proof.Machine.execBrownOutFilterExpiry s
  | .stopComplete inp => Sys2Proof.Machine.execStopComplete inp s
  | .storeExhausted => Sys2Proof.Machine.execStoreExhausted s
  | .watchdogExpiry inp => Sys2Proof.Machine.execWatchdogExpiry inp s
  | .watchdogService => Sys2Proof.Machine.execWatchdogService s
  | .pllLockLoss p overOneMs => Sys2Proof.Machine.execPllLockLoss p overOneMs s
  | .railOutOfBand rail => Sys2Proof.Machine.execRailOutOfBand rail s
  | .c4WaitExpiry inp => Sys2Proof.Machine.execC4WaitExpiry inp s
  | .thermalRelease inp => Sys2Proof.Machine.execThermalRelease inp s
  | .runTokenLapse => Sys2Proof.Machine.execRunTokenLapse s
  | .codeReread r => Sys2Proof.Machine.execCodeReread r s
  | .dieTemperatureReading t => Sys2Proof.Machine.execDieTemperatureReading t s
  | .dvfsInterval busy total => Sys2Proof.Machine.execDvfsInterval busy total s
  | .operatingPointChange => Sys2Proof.Machine.execOperatingPointChange s
  | .standbyPllLockTimeout => Sys2Proof.Machine.execStandbyPllLockTimeout s
  | .sentinelEstimateUpdate m => Sys2Proof.Machine.execSentinelEstimateUpdate m s
  | .sentinelCrossing c => Sys2Proof.Machine.execSentinelCrossing c s
  | .rangeLoopInterval ch peakMg clip => Sys2Proof.Machine.execRangeLoopInterval ch peakMg clip s
  | .linkAmplitudeFallback p => Sys2Proof.Machine.execLinkAmplitudeFallback p s
  | .portUp p amp24 master => Sys2Proof.Machine.execPortUp p amp24 master s
  | .linkLoss p => Sys2Proof.Machine.execLinkLoss p s
  | .relayStart p => Sys2Proof.Machine.execRelayStart p s
  | .hsrFrame p f => Sys2Proof.Machine.execHsrFrame p f s
  | .duplicateEntryForget => Sys2Proof.Machine.execDuplicateEntryForget s
  | .ownFramePromotion p => Sys2Proof.Machine.execOwnFramePromotion p s
  | .supervisionSend => Sys2Proof.Machine.execSupervisionSend s
  | .supervisionFrame p f => Sys2Proof.Machine.execSupervisionFrame p f s
  | .sync p src seqId master loc => Sys2Proof.Machine.execSync p src seqId master loc s
  | .followUp p f => Sys2Proof.Machine.execFollowUp p f s
  | .delayReq p f residence => Sys2Proof.Machine.execDelayReq p f residence s
  | .delayReqSend => Sys2Proof.Machine.execDelayReqSend s
  | .delayResp p src delay => Sys2Proof.Machine.execDelayResp p src delay s
  | .announce p m => Sys2Proof.Machine.execAnnounce p m s
  | .announceTimeout => Sys2Proof.Machine.execAnnounceTimeout s
  | .syncSilence => Sys2Proof.Machine.execSyncSilence s
  | .timePortChange => Sys2Proof.Machine.execTimePortChange s
  | .pulseSend => Sys2Proof.Machine.execPulseSend s
  | .pulse m => Sys2Proof.Machine.execPulse m s
  | .buddySilence b => Sys2Proof.Machine.execBuddySilence b s
  | .lossRepeat b => Sys2Proof.Machine.execLossRepeat b s
  | .loss m => Sys2Proof.Machine.execLoss m s
  | .going m => Sys2Proof.Machine.execGoing m s
  | .twin m => Sys2Proof.Machine.execTwin m s
  | .census m => Sys2Proof.Machine.execCensus m s
  | .censusAnswer => Sys2Proof.Machine.execCensusAnswer s
  | .roll m => Sys2Proof.Machine.execRoll m s
  | .speedSourceChange => Sys2Proof.Machine.execSpeedSourceChange s
  | .timeAux m => Sys2Proof.Machine.execTimeAux m s
  | .bundle m => Sys2Proof.Machine.execBundle m s
  | .bundleTransferTimeout m => Sys2Proof.Machine.execBundleTransferTimeout m s
  | .reassemblyEraseComplete => Sys2Proof.Machine.execReassemblyEraseComplete s
  | .stagingComplete => Sys2Proof.Machine.execStagingComplete s
  | .restart m => Sys2Proof.Machine.execRestart m s
  | .sectorEraseComplete r => Sys2Proof.Machine.execSectorEraseComplete r s
  | .keeperSilence => Sys2Proof.Machine.execKeeperSilence s
  | .ledgerReplay => Sys2Proof.Machine.execLedgerReplay s
  | .outboxRecordTake t => Sys2Proof.Machine.execOutboxRecordTake t s
  | .mode t field => Sys2Proof.Machine.execMode t field s
  | .modeCommit t => Sys2Proof.Machine.execModeCommit t s
  | .proofWindowOpen => Sys2Proof.Machine.execProofWindowOpen s
  | .selfTestAxis ch prev => Sys2Proof.Machine.execSelfTestAxis ch prev s
  | .proofWindowEnd last => Sys2Proof.Machine.execProofWindowEnd last s
  | .arrayPark => Sys2Proof.Machine.execArrayPark s
  | .poolWakeComplete g => Sys2Proof.Machine.execPoolWakeComplete g s
  | .captureTrigger t via => Sys2Proof.Machine.execCaptureTrigger t via s
  | .captureArm t via => Sys2Proof.Machine.execCaptureArm t via s
  | .captureStop t via => Sys2Proof.Machine.execCaptureStop t via s
  | .captureLenReached t => Sys2Proof.Machine.execCaptureLenReached t s
  | .laneFrame l codeOk bytes => Sys2Proof.Machine.execLaneFrame l codeOk bytes s
  | .laneRetrain l ok => Sys2Proof.Machine.execLaneRetrain l ok s
  | .rangeChange ch => Sys2Proof.Machine.execRangeChange ch s
  | .ctclaimWrite t => Sys2Proof.Machine.execCtclaimWrite t s
  | .inletBufferComplete k => Sys2Proof.Machine.execInletBufferComplete k s
  | .inctlWrite t => Sys2Proof.Machine.execInctlWrite t s
  | .inrelWrite t => Sys2Proof.Machine.execInrelWrite t s
  | .inloadWrite t => Sys2Proof.Machine.execInloadWrite t s
  | .outctlWrite t => Sys2Proof.Machine.execOutctlWrite t s
  | .brctlWrite t => Sys2Proof.Machine.execBrctlWrite t s
  | .outletSend k => Sys2Proof.Machine.execOutletSend k s
  | .strandOpEnd t => Sys2Proof.Machine.execStrandOpEnd t s
  | .confluenceResult t => Sys2Proof.Machine.execConfluenceResult t s
  | .speculationResolve t => Sys2Proof.Machine.execSpeculationResolve t s
  | .shiftAbandon t => Sys2Proof.Machine.execShiftAbandon t s
  | .sluiceParityReload n addr uncorrectable => Sys2Proof.Machine.execSluiceParityReload n addr uncorrectable s
  | .bell t => Sys2Proof.Machine.execBell t s
  | .contextSwap n par => Sys2Proof.Machine.execContextSwap n par s
  | .sliceExpiry n => Sys2Proof.Machine.execSliceExpiry n s
  | .waitTimeout t => Sys2Proof.Machine.execWaitTimeout t s
  | .lit t k => Sys2Proof.Machine.execLit t k s
  | .litu t k => Sys2Proof.Machine.execLitu t k s
  | .lits t k => Sys2Proof.Machine.execLits t k s
  | .ld t a par => Sys2Proof.Machine.execLd t a par s
  | .st t a => Sys2Proof.Machine.execSt t a s
  | .ldx t a => Sys2Proof.Machine.execLdx t a s
  | .stx t a => Sys2Proof.Machine.execStx t a s
  | .ldy t a => Sys2Proof.Machine.execLdy t a s
  | .sty t a => Sys2Proof.Machine.execSty t a s
  | .bank t k => Sys2Proof.Machine.execBank t k s
  | .addi t k => Sys2Proof.Machine.execAddi t k s
  | .br t o => Sys2Proof.Machine.execBr t o s
  | .bz t o => Sys2Proof.Machine.execBz t o s
  | .bnz t o => Sys2Proof.Machine.execBnz t o s
  | .call t o => Sys2Proof.Machine.execCall t o s
  | .ret t field => Sys2Proof.Machine.execRet t field s
  | .jmpi t field => Sys2Proof.Machine.execJmpi t field s
  | .calli t field => Sys2Proof.Machine.execCalli t field s
  | .brc t field => Sys2Proof.Machine.execBrc t field s
  | .loop t n => Sys2Proof.Machine.execLoop t n s
  | .leave t field => Sys2Proof.Machine.execLeave t field s
  | .repsMovs t hi budget => Sys2Proof.Machine.execRepsMovs t hi budget s
  | .repsFills t hi budget => Sys2Proof.Machine.execRepsFills t hi budget s
  | .repsCrcs t hi budget => Sys2Proof.Machine.execRepsCrcs t hi budget s
  | .repsScans t hi budget => Sys2Proof.Machine.execRepsScans t hi budget s
  | .conf t field => Sys2Proof.Machine.execConf t field s
  | .wait t field => Sys2Proof.Machine.execWait t field s
  | .yield t field => Sys2Proof.Machine.execYield t field s
  | .fence t field => Sys2Proof.Machine.execFence t field s
  | .retb t field => Sys2Proof.Machine.execRetb t field s
  | .hrd t field => Sys2Proof.Machine.execHrd t field s
  | .hwr t field => Sys2Proof.Machine.execHwr t field s
  | .hrdc t field => Sys2Proof.Machine.execHrdc t field s
  | .hwrc t field => Sys2Proof.Machine.execHwrc t field s
  | .lctlWrite t via => Sys2Proof.Machine.execLctlWrite t via s
  | .rstatWrite t via => Sys2Proof.Machine.execRstatWrite t via s
  | .ctsixlRead t => Sys2Proof.Machine.execCtsixlRead t s
  | .ptnsRead t => Sys2Proof.Machine.execPtnsRead t s
  | .wrlabWrite t => Sys2Proof.Machine.execWrlabWrite t s
  | .gafloorWrite t => Sys2Proof.Machine.execGafloorWrite t s
  | .gasflWrite t => Sys2Proof.Machine.execGasflWrite t s
  | .mntapWrite t => Sys2Proof.Machine.execMntapWrite t s
  | .mnclkWrite t => Sys2Proof.Machine.execMnclkWrite t s
  | .clockSwitchComplete r => Sys2Proof.Machine.execClockSwitchComplete r s
  | .mnrcfgWrite t => Sys2Proof.Machine.execMnrcfgWrite t s
  | .reconfigurationStart => Sys2Proof.Machine.execReconfigurationStart s
  | .reconfigurationComplete ecc => Sys2Proof.Machine.execReconfigurationComplete ecc s
  | .tapEvent r => Sys2Proof.Machine.execTapEvent r s
  | .post r => Sys2Proof.Machine.execPost r s
  | .rd q => Sys2Proof.Machine.execRd q s
  | .wr q units poison => Sys2Proof.Machine.execWr q units poison s
  | .wrw q word poison => Sys2Proof.Machine.execWrw q word poison s
  | .wrp q units poison => Sys2Proof.Machine.execWrp q units poison s
  | .regrd q => Sys2Proof.Machine.execRegrd q s
  | .regwr q value poison => Sys2Proof.Machine.execRegwr q value poison s
  | .bstr q units => Sys2Proof.Machine.execBstr q units s
  | .rdi q => Sys2Proof.Machine.execRdi q s
  | .rdata n tag d => Sys2Proof.Machine.execRdata n tag d s
  | .ack n tag d => Sys2Proof.Machine.execAck n tag d s
  | .err n tag d => Sys2Proof.Machine.execErr n tag d s
  | .snpinv n block => Sys2Proof.Machine.execSnpinv n block s
  | .snpack n block => Sys2Proof.Machine.execSnpack n block s
  | .niTimeout n tag near => Sys2Proof.Machine.execNiTimeout n tag near s
  | .tagRelease n tag => Sys2Proof.Machine.execTagRelease n tag s
  | .flushComplete n => Sys2Proof.Machine.execFlushComplete n s
  | .scrubRead k ecc => Sys2Proof.Machine.execScrubRead k ecc s
  | .forcedScrub k ecc => Sys2Proof.Machine.execForcedScrub k ecc s
  | .weirWindow => Sys2Proof.Machine.execWeirWindow s
  | .shortfallDeclaration g cls => Sys2Proof.Machine.execShortfallDeclaration g cls s
  | .countedInterval => Sys2Proof.Machine.execCountedInterval s
  | .faultLedgerPageWrite => Sys2Proof.Machine.execFaultLedgerPageWrite s
  | .faultHandlingComplete => Sys2Proof.Machine.execFaultHandlingComplete s
  | .strandOpenRegion t e par => Sys2Proof.Machine.execStrandOpenRegion t e par s
  | .copy t par => Sys2Proof.Machine.execCopy t par s
  | .romNot t par => Sys2Proof.Machine.execRomNot t par s
  | .romAnd t par => Sys2Proof.Machine.execRomAnd t par s
  | .romOr t par => Sys2Proof.Machine.execRomOr t par s
  | .romXor t par => Sys2Proof.Machine.execRomXor t par s
  | .set t par => Sys2Proof.Machine.execSet t par s
  | .clr t par => Sys2Proof.Machine.execClr t par s
  | .shn t par => Sys2Proof.Machine.execShn t par s
  | .she t par => Sys2Proof.Machine.execShe t par s
  | .shs t par => Sys2Proof.Machine.execShs t par s
  | .shw t par => Sys2Proof.Machine.execShw t par s
  | .romAdd t par => Sys2Proof.Machine.execRomAdd t par s
  | .subc t par => Sys2Proof.Machine.execSubc t par s
  | .romSub t par => Sys2Proof.Machine.execRomSub t par s
  | .cmpc t par => Sys2Proof.Machine.execCmpc t par s
  | .cmp t par => Sys2Proof.Machine.execCmp t par s
  | .maxc t par => Sys2Proof.Machine.execMaxc t par s
  | .romMul t par => Sys2Proof.Machine.execRomMul t par s
  | .any t par => Sys2Proof.Machine.execAny t par s
  | .inh t par => Sys2Proof.Machine.execInh t par s
  | .outp t par => Sys2Proof.Machine.execOutp t par s
  | .dec128 t par => Sys2Proof.Machine.execDec128 t par s
  | .scale t par => Sys2Proof.Machine.execScale t par s
  | .fft8k t par => Sys2Proof.Machine.execFft8k t par s
  | .magsq t par => Sys2Proof.Machine.execMagsq t par s
  | .envdm t par => Sys2Proof.Machine.execEnvdm t par s
  | .resamp t par => Sys2Proof.Machine.execResamp t par s
  | .selftest t k par => Sys2Proof.Machine.execSelftest t k par s
  | .nop t b bar => Sys2Proof.Machine.execNop t b bar s
  | .dup t b bar par => Sys2Proof.Machine.execDup t b bar par s
  | .drop t b bar => Sys2Proof.Machine.execDrop t b bar s
  | .swap t b bar => Sys2Proof.Machine.execSwap t b bar s
  | .over t b bar => Sys2Proof.Machine.execOver t b bar s
  | .rot t b bar => Sys2Proof.Machine.execRot t b bar s
  | .nip t b bar => Sys2Proof.Machine.execNip t b bar s
  | .tuck t b bar => Sys2Proof.Machine.execTuck t b bar s
  | .pick t b bar => Sys2Proof.Machine.execPick t b bar s
  | .tor t b bar => Sys2Proof.Machine.execTor t b bar s
  | .fromr t b bar => Sys2Proof.Machine.execFromr t b bar s
  | .rfetch t b bar => Sys2Proof.Machine.execRfetch t b bar s
  | .rdrop t b bar => Sys2Proof.Machine.execRdrop t b bar s
  | .add t b bar => Sys2Proof.Machine.execAdd t b bar s
  | .sub t b bar => Sys2Proof.Machine.execSub t b bar s
  | .neg t b bar => Sys2Proof.Machine.execNeg t b bar s
  | .inc t b bar => Sys2Proof.Machine.execInc t b bar s
  | .dec t b bar => Sys2Proof.Machine.execDec t b bar s
  | .mul t b bar => Sys2Proof.Machine.execMul t b bar s
  | .mulu t b bar => Sys2Proof.Machine.execMulu t b bar s
  | .min t b bar => Sys2Proof.Machine.execMin t b bar s
  | .max t b bar => Sys2Proof.Machine.execMax t b bar s
  | .abs t b bar => Sys2Proof.Machine.execAbs t b bar s
  | .and t b bar => Sys2Proof.Machine.execAnd t b bar s
  | .or t b bar => Sys2Proof.Machine.execOr t b bar s
  | .xor t b bar => Sys2Proof.Machine.execXor t b bar s
  | .not t b bar => Sys2Proof.Machine.execNot t b bar s
  | .shl t b bar => Sys2Proof.Machine.execShl t b bar s
  | .shr t b bar => Sys2Proof.Machine.execShr t b bar s
  | .asr t b bar => Sys2Proof.Machine.execAsr t b bar s
  | .rol t b bar => Sys2Proof.Machine.execRol t b bar s
  | .shl1 t b bar => Sys2Proof.Machine.execShl1 t b bar s
  | .shr1 t b bar => Sys2Proof.Machine.execShr1 t b bar s
  | .asr1 t b bar => Sys2Proof.Machine.execAsr1 t b bar s
  | .eq t b bar => Sys2Proof.Machine.execEq t b bar s
  | .lt t b bar => Sys2Proof.Machine.execLt t b bar s
  | .ult t b bar => Sys2Proof.Machine.execUlt t b bar s
  | .zeq t b bar => Sys2Proof.Machine.execZeq t b bar s
  | .zlt t b bar => Sys2Proof.Machine.execZlt t b bar s
  | .crc t b bar => Sys2Proof.Machine.execCrc t b bar s
  | .par t b bar => Sys2Proof.Machine.execPar t b bar s
  | .brev t b bar => Sys2Proof.Machine.execBrev t b bar s
  | .ldi t b bar => Sys2Proof.Machine.execLdi t b bar s
  | .sti t b bar => Sys2Proof.Machine.execSti t b bar s
  | .ldip t b bar => Sys2Proof.Machine.execLdip t b bar s
  | .stip t b bar => Sys2Proof.Machine.execStip t b bar s
  | .movs t b bar => Sys2Proof.Machine.execMovs t b bar s
  | .fills t b bar => Sys2Proof.Machine.execFills t b bar s
  | .crcs t b bar => Sys2Proof.Machine.execCrcs t b bar s
  | .scans t b bar => Sys2Proof.Machine.execScans t b bar s
  | .os t k b bar => Sys2Proof.Machine.execOs t k b bar s
  | .mac t b bar par => Sys2Proof.Machine.execMac t b bar par s
  | .cmac t b bar => Sys2Proof.Machine.execCmac t b bar s
  | .clra t b bar => Sys2Proof.Machine.execClra t b bar s
  | .rdre t b bar => Sys2Proof.Machine.execRdre t b bar s
  | .rdim t b bar => Sys2Proof.Machine.execRdim t b bar s
  | .wrre t b bar => Sys2Proof.Machine.execWrre t b bar s
  | .wrim t b bar => Sys2Proof.Machine.execWrim t b bar s
  | .norm t b bar => Sys2Proof.Machine.execNorm t b bar s
  | .exp t b bar => Sys2Proof.Machine.execExp t b bar s
  | .bexp t b bar => Sys2Proof.Machine.execBexp t b bar s
  | .rdbx t b bar => Sys2Proof.Machine.execRdbx t b bar s
  | .rnd t b bar => Sys2Proof.Machine.execRnd t b bar s
  | .returnAfterBrownOut inp => Sys2Proof.Machine.execReturnAfterBrownOut inp s
  | .vsReturnAboveBrownOut => Sys2Proof.Machine.execVsReturnAboveBrownOut s
  | .lockSelfCheckFailure drbg => Sys2Proof.Machine.execLockSelfCheckFailure drbg s
  | .nodeTableForget => Sys2Proof.Machine.execNodeTableForget s
  | .regionTreeEdge r => Sys2Proof.Machine.execRegionTreeEdge r s

end Sys2Proof.Machine
end

