-- ==== Sys2Proof/Machine/Tick.lean ====
section
/-! DEFINITION. One tick of 8 ns, which is what the block does while no command waits (log 4, DESIGN CHOICE): time and the sample index
advance, a unit drains a store, a port sends a frame, an op that has used up its actions goes on, and what the Meander
border and the inlets do in a CK_S cycle happens. -/

namespace Sys2Proof.Machine

/-- A sampling edge falls in the next tick: 768/15 625 of a sample (R122). -/
def Time.edgeNext (t : Time) : Bool := decide (15625 + t.stretch ≤ t.siFrac + 768)

/-- The sample index and the place in the lane frame after a tick (R122, R125). -/
def Time.sample (t : Time) : Time :=
  if t.edgeNext then
    { t with si := t.si + 1, siFrac := t.siFrac + 768 - (15625 + t.stretch), edge := (t.edge + 1) % 40, stretch := 0 }
  else { t with siFrac := t.siFrac + 768 }

/-- Time moves on by 8 ns; while the main die runs, so does the sample index, and at a frame boundary a step that waits is taken. -/
def State.tickTime (s : State) : State :=
  let time := { s.time with mono := s.time.mono + 8 }
  if s.dieOn then
    let s1 := { s with time := time.sample }
    if s.time.edgeNext && decide (s1.time.edge = 0) then s1.takeStep else s1
  else { s with time := time }

/-- The tick holds a CK_S edge: eight of them make a sample. -/
def State.ckS (s : State) : Bool := decide (s.time.siFrac * 8 / 15625 < (s.time.siFrac + 768) * 8 / 15625)

/-- An inlet whose source is none of Table BR-6 takes a zero in each CK_S cycle (R144). -/
def Inlet.zeroFed (i : Inlet) : Bool := i.en && decide (12 ≤ i.src.toNat) && decide (i.src.toNat ≠ 0x10) && decide (i.src.toNat ≠ 0x11)

def State.feedZero (s : State) (k : Strip) : State :=
  if (s.strip k).inlet.zeroFed then s.pushBit k s.time.si false {} else s

/-- A CK_S cycle at the border and the inlets. -/
def State.tickBorder (s : State) : State :=
  let s := allStrips.foldl (fun s k => s.feedZero k) s
  (List.finRange 16).foldl (fun s r => (s.drainTap r).drainPost r) s

/-! ### Parity errors (R356, Table FL-3) -/

/-- A parity error is met: a cached line is C1 and is fetched again, a route-table entry or a copy of a window is C4. -/
def State.meetUpset (s : State) : Upset → State
  | .line n l =>
    if (s.hunit n).icache.contains l then
      (s.modUnit n (fun u => { u with icache := u.icache.filter (fun x => decide (x ≠ l)) })).countFault 0x46 n.val
    else s
  | .route n e => s.takeFault 0x63 (BitVec.ofNat 8 n.val) e.val none none
  | .window t w => s.takeFault 0x63 (BitVec.ofNat 8 (0x80 + t.val)) w.val none none

/-- The parity errors that fall due are met. Which there are comes with the start (log 155, DESIGN CHOICE). -/
def State.meetUpsets (s : State) : State :=
  let due := s.faults.upsets.filter (fun u => s.passed u.1 0)
  let s := { s with faults := { s.faults with upsets := s.faults.upsets.filter (fun u => !s.passed u.1 0) } }
  due.foldl (fun s u => s.meetUpset u.2) s

/-- What the main die does in a tick of RUN. -/
def State.tickDie (s : State) (edge : Bool) : State :=
  let s := allUnits.foldl (fun s n => s.drainOne n) s
  if edge then s.tickBorder else s

/-- One tick. Without power nothing happens. -/
def State.tick (s : State) : State :=
  if s.power.powered then
    let edge := s.ckS
    let s := ((s.tickTime).transmit .a).transmit .b
    let s := if s.dieOn then allCtx.foldl (fun s t => s.goOnOp t) s.meetUpsets.pump else s
    if s.power.phase = .run then s.tickDie edge else s
  else s

end Sys2Proof.Machine
end

