-- ==== Sys2Proof/Safety.lean ====
section
/-! DEFINITION. What counts as a safe run: the memories keep their canonical form, the Lock's fuses never go back, and HALE
conducts only while no row of Table SK-10 releases it. The predicates and tables that statements use stand here too. -/

namespace Sys2Proof.Machine

/-! ### Safety -/

/-- The Pool and the Eddy are in canonical form. -/
def State.memOk (s : State) : Bool := Mem.wf 0 s.pool && Mem.wf 0 s.eddy

/-- Of two states the later one has lost no fuse: the charter and patch counters are no lower, and every enrolment of the
earlier one stands (R74, R83). -/
structure FusesKept (a b : State) : Prop where
  charter : a.lock.charterCtr ≤ b.lock.charterCtr
  patch   : a.lock.patchCtr ≤ b.lock.patchCtr
  enrol   : a.lock.banks <+: b.lock.banks

/-- HALE conducts only where Table SK-10 allows it (R28, R29). -/
def State.haleSafe (s : State) : Bool := !s.power.hale || s.haleAllowed

/-! ### The issue of an instruction -/

/-- Context `t` issues its next instruction (R173): it runs, nothing is due before, and its fetch leaves `s1`. -/
structure Issues (s : State) (t : Ctx) (s1 : State) : Prop where
  can     : s.canIssue t = true
  fetched : s.fetch t (s.ctx t).pc = .ok s1 ()

/-- The place of an instruction is open to one that is not plain: no delay slot and no loop end (R182, R192). -/
structure OpenPlace (s : State) (t : Ctx) : Prop where
  slot : (s.ctx t).branch = none
  loop : (s.ctx t).atLoopEnd = false

/-- One slot of a mode shadow passes with an issue slot (R105). -/
def Context.passSlot (c : Context) (before : Option Shadow) : Context :=
  match before with
  | some sh => { c with shadow := some { sh with left := sh.left - 1 } }
  | none => c

/-- The state once an instruction fetched in `s1` has completed in sequence with the state `s2` of its body. A speculation that goes
on stalls at no limit of R202 then. -/
def State.seqAfter (s2 s1 : State) (t : Ctx) (bar : Bool) : State :=
  (s2.modCtx t (fun c => { (c.sequel.passSlot (s1.ctx t).shadow) with time := c.time + 1, bar := bar })).setLimited t false

/-- The same with the next address given. -/
def State.jumpAfter (s2 s1 : State) (t : Ctx) (pc : BitVec 19) : State :=
  (s2.modCtx t (fun c => { (c.passSlot (s1.ctx t).shadow) with pc := pc, time := c.time + 1, bar := false })).setLimited t false

/-- The same after a branch of `s1`'s context: the delay slot follows, and a cause there restores `s1`'s registers (R182,
R199). -/
def State.branchAfter (s2 s1 : State) (t : Ctx) (target : BitVec 19) (taken : Bool) : State :=
  let c1 := s1.ctx t
  (s2.modCtx t (fun c => { (c.passSlot c1.shadow) with
    pc := c1.pc + 1, branch := some { addr := c1.pc, target := target, taken := taken, undo := c1.arch },
    time := c.time + 1, bar := false })).setLimited t false

/-- The pair of codes `ca` and `cb` raises no cause of its own in `s`: both are listed, they do not depend on each other,
and both stacks hold what they need (R175, R177, R178, R186). -/
def PairOk (s : State) (t : Ctx) (ca cb : BitVec 8) : Prop := (s.ctx t).arch.pairCheck ca.toNat cb.toNat 0 0 = none

/-! ### Tables of the short ops: the command in slot A, its code, and what it makes of the data stack, top first, or of the
registers -/

/-- ( x -- f x ). -/
def unary (f : Word → Word) : List Word → List Word
  | x :: r => f x :: r
  | r => r

/-- ( a b -- f a b ). -/
def binary (f : Word → Word → Word) : List Word → List Word
  | b :: a :: r => f a b :: r
  | r => r

/-- Table HW-4: the stack ops. -/
inductive StackRow : (Ctx → BitVec 8 → Bool → Instr) → BitVec 8 → (List Word → List Word) → Prop where
  | nop  : StackRow (fun t b bar => .nop t (.op b) bar) 0x00 (fun ds => ds)
  | dup  : StackRow (fun t b bar => .dup t b bar none) 0x01 (fun ds => match ds with | x :: r => x :: x :: r | r => r)
  | drop : StackRow .drop 0x02 (fun ds => match ds with | _ :: r => r | r => r)
  | swap : StackRow .swap 0x03 (fun ds => match ds with | b :: a :: r => a :: b :: r | r => r)
  | over' : StackRow .over 0x04 (fun ds => match ds with | b :: a :: r => a :: b :: a :: r | r => r)
  | rot  : StackRow .rot 0x05 (fun ds => match ds with | c :: b :: a :: r => a :: c :: b :: r | r => r)
  | nip  : StackRow .nip 0x06 (fun ds => match ds with | b :: _ :: r => b :: r | r => r)
  | tuck : StackRow .tuck 0x07 (fun ds => match ds with | b :: a :: r => b :: a :: b :: r | r => r)
  | pick : StackRow .pick 0x08 (fun ds => match ds with | n :: r => r.getD n.toNat 0 :: r | r => r)

/-- Table HW-4: the ops on one or two words. -/
inductive WordRow : (Ctx → BitVec 8 → Bool → Instr) → BitVec 8 → (List Word → List Word) → Prop where
  | add  : WordRow .add 0x10 (binary (fun a b => a + b))
  | sub  : WordRow .sub 0x11 (binary (fun a b => a - b))
  | neg  : WordRow .neg 0x12 (unary (fun x => 0 - x))
  | inc  : WordRow .inc 0x13 (unary (fun x => x + 1))
  | dec  : WordRow .dec 0x14 (unary (fun x => x - 1))
  | mul  : WordRow .mul 0x15 (binary (fun a b => BitVec.ofInt 36 ((a.extractLsb' 0 18).toInt * (b.extractLsb' 0 18).toInt)))
  | mulu : WordRow .mulu 0x16 (binary (fun a b => BitVec.ofNat 36 (a.toNat % 2 ^ 18 * (b.toNat % 2 ^ 18))))
  | min  : WordRow .min 0x17 (binary (fun a b => if a.toInt ≤ b.toInt then a else b))
  | max  : WordRow .max 0x18 (binary (fun a b => if a.toInt ≤ b.toInt then b else a))
  | abs  : WordRow .abs 0x19 (unary (fun x => if x.toInt < 0 then 0 - x else x))
  | and  : WordRow .and 0x20 (binary (fun a b => a &&& b))
  | or   : WordRow .or 0x21 (binary (fun a b => a ||| b))
  | xor  : WordRow .xor 0x22 (binary (fun a b => a ^^^ b))
  | not  : WordRow .not 0x23 (unary (fun x => ~~~x))
  | shl1 : WordRow .shl1 0x28 (unary (fun x => x <<< 1))
  | shr1 : WordRow .shr1 0x29 (unary (fun x => x >>> 1))
  | asr1 : WordRow .asr1 0x2a (unary (fun x => BitVec.ofInt 36 (x.toInt / 2)))
  | eq   : WordRow .eq 0x30 (binary (fun a b => if a = b then 1 else 0))
  | lt   : WordRow .lt 0x31 (binary (fun a b => if a.toInt < b.toInt then 1 else 0))
  | ult  : WordRow .ult 0x32 (binary (fun a b => if a.toNat < b.toNat then 1 else 0))
  | zeq  : WordRow .zeq 0x33 (unary (fun x => if x = 0 then 1 else 0))
  | zlt  : WordRow .zlt 0x34 (unary (fun x => if x.toInt < 0 then 1 else 0))
  | par  : WordRow .par 0x39 (unary (fun x => if ((List.range 36).filter (fun i => x.getLsbD i)).length % 2 = 1 then 1 else 0))

/-- The `n` low bits of `x` in reverse order. -/
def lowReversed (x : Word) (n : Nat) : Word := x.reverse >>> (36 - n)

/-- R187: the shifts and BREV, with the count and the width taken from n[5:0]. -/
inductive ShiftRow : (Ctx → BitVec 8 → Bool → Instr) → BitVec 8 → (List Word → List Word) → Prop where
  | shl  : ShiftRow .shl 0x24 (binary (fun x n => if n.toNat % 64 < 36 then x <<< (n.toNat % 64) else 0))
  | shr  : ShiftRow .shr 0x25 (binary (fun x n => if n.toNat % 64 < 36 then x >>> (n.toNat % 64) else 0))
  | asr  : ShiftRow .asr 0x26 (binary (fun x n => BitVec.ofInt 36 (x.toInt / 2 ^ (n.toNat % 64))))
  | rol  : ShiftRow .rol 0x27 (binary (fun x n => x.rotateLeft (n.toNat % 64 % 36)))
  | brev : ShiftRow .brev 0x3a (binary (fun x n => lowReversed x (Nat.min (n.toNat % 64) 36)))

/-- Table HW-4: the ops on the return stack (R178) and the operand registers. -/
inductive RegRow : (Ctx → BitVec 8 → Bool → Instr) → BitVec 8 → (Arch → Arch) → Prop where
  | tor    : RegRow .tor 0x09 (fun a => { a with ds := a.ds.drop 1, rs := a.ds.getD 0 0 :: a.rs.take 11 })
  | fromr  : RegRow .fromr 0x0a (fun a => { a with ds := a.rs.getD 0 0 :: a.ds, rs := a.rs.drop 1 })
  | rfetch : RegRow .rfetch 0x0b (fun a => { a with ds := a.rs.getD 0 0 :: a.ds })
  | rdrop  : RegRow .rdrop 0x0c (fun a => { a with rs := a.rs.drop 1 })
  | os (k : Fin 8) : RegRow (fun t b bar => .os t k b bar) (BitVec.ofNat 8 (0x48 + k.val))
      (fun a => { a with ds := a.ds.drop 1, ops := a.ops.set k ((a.ds.getD 0 0).extractLsb' 0 11) })

/-- A value shifted right by `k`, rounded half up or half to even (R223). -/
def roundedAt (even : Bool) (k : Nat) (v : Int) : Int :=
  if k = 0 then v
  else
    let q := v / 2 ^ k
    let r := v % 2 ^ k
    if 2 ^ (k - 1) < r ∨ (r = 2 ^ (k - 1) ∧ (even = false ∨ q % 2 = 1)) then q + 1 else q

/-- The value `v` fits `w` signed bits. -/
def fits (w : Nat) (v : Int) : Prop := -(2 ^ (w - 1)) ≤ v ∧ v < 2 ^ (w - 1)

/-- `n` is EXP(x) of R226: the leading bits equal to bit 35, minus one. -/
def isExp (x : Word) (n : Nat) : Prop :=
  n ≤ 35 ∧ (∀ i, 35 - n ≤ i → i ≤ 35 → x.getLsbD i = x.getLsbD 35) ∧ (n < 35 → x.getLsbD (34 - n) ≠ x.getLsbD 35)

/-- What RDRE or RDIM makes of the registers for an accumulator (R223). -/
def readRow (acc : Arch → BitVec 40) (a : Arch) : Arch :=
  let r := fitTo (if a.out18 then 18 else 36) a.sat (roundedAt a.rconv a.rsh (acc a).toInt)
  { a with ds := BitVec.ofInt 36 r.1 :: a.ds, rov := a.rov || r.2 }

/-- What WRRE or WRIM makes of the popped word (R222). -/
def writeRow (a : Arch) : Int × Bool := fitTo 40 a.sat ((a.ds.getD 0 0).toInt * 2 ^ a.wsh)

/-- Table HW-4: the Riffle's ops on registers (R222 to R224, R226). -/
inductive RiffleRow : (Ctx → BitVec 8 → Bool → Instr) → BitVec 8 → (Arch → Arch) → Prop where
  | clra : RiffleRow .clra 0x52 (fun a => { a with acr := 0, aci := 0 })
  | rdre : RiffleRow .rdre 0x53 (readRow Arch.acr)
  | rdim : RiffleRow .rdim 0x54 (readRow Arch.aci)
  | wrre : RiffleRow .wrre 0x55 (fun a =>
      { a with ds := a.ds.drop 1, acr := BitVec.ofInt 40 (writeRow a).1, ova := a.ova || (writeRow a).2 })
  | wrim : RiffleRow .wrim 0x56 (fun a =>
      { a with ds := a.ds.drop 1, aci := BitVec.ofInt 40 (writeRow a).1, ova := a.ova || (writeRow a).2 })
  | norm : RiffleRow .norm 0x57 (fun a => { a with ds := (a.ds.getD 0 0 <<< expWord (a.ds.getD 0 0)) :: a.ds.drop 1 })
  | exp  : RiffleRow .exp 0x58 (fun a => { a with ds := BitVec.ofNat 36 (expWord (a.ds.getD 0 0)) :: a.ds.drop 1 })
  | bexp : RiffleRow .bexp 0x59 (fun a =>
      { a with ds := a.ds.drop 1, rbx := BitVec.ofNat 6 (Nat.max a.rbx.toNat (35 - expWord (a.ds.getD 0 0))) })
  | rdbx : RiffleRow .rdbx 0x5a (fun a => { a with ds := (35 - a.rbx.zeroExtend 36) :: a.ds, rbx := 0 })
  | rnd  : RiffleRow .rnd 0x5b (fun a => { a with ds := a.ds.drop 1, rconv := (a.ds.getD 0 0).getLsbD 0 })

/-- Every short op as slot A has it: its command and its code. -/
inductive ShortCommand : (Ctx → BitVec 8 → Bool → Instr) → BitVec 8 → Prop where
  | stack {cmd code act} : StackRow cmd code act → ShortCommand cmd code
  | word {cmd code act} : WordRow cmd code act → ShortCommand cmd code
  | shift {cmd code act} : ShiftRow cmd code act → ShortCommand cmd code
  | reg {cmd code act} : RegRow cmd code act → ShortCommand cmd code
  | riffle {cmd code act} : RiffleRow cmd code act → ShortCommand cmd code
  | crc : ShortCommand .crc 0x38
  | ldi : ShortCommand .ldi 0x40
  | sti : ShortCommand .sti 0x41
  | ldip : ShortCommand .ldip 0x42
  | stip : ShortCommand .stip 0x43
  | movs : ShortCommand .movs 0x44
  | fills : ShortCommand .fills 0x45
  | crcs : ShortCommand .crcs 0x46
  | scans : ShortCommand .scans 0x47
  | mac : ShortCommand (fun t b bar => .mac t b bar none) 0x50
  | cmac : ShortCommand .cmac 0x51

/-- The codes that Table HW-4 does not list (R186). -/
def unlistedCode (b : BitVec 8) : Bool :=
  let n := b.toNat
  (decide (0x0d ≤ n) && decide (n ≤ 0x0f)) || (decide (0x1a ≤ n) && decide (n ≤ 0x1f)) || (decide (0x2b ≤ n) && decide (n ≤ 0x2f))
  || (decide (0x35 ≤ n) && decide (n ≤ 0x37)) || (decide (0x3b ≤ n) && decide (n ≤ 0x3f)) || decide (0x5c ≤ n)

/-- The codes that CRCC.W outside 8 to 32 makes undefined: CRC and CRCS (R188). -/
def usesCrc (b : BitVec 8) : Bool := decide (b = 0x38) || decide (b = 0x46)

/-! ### The rows of the table for single registers -/

/-- The commands that are an HWR of value `v` to a register of their row. -/
inductive NamedWrite (t : Ctx) : Instr → RegAddr → Word → Prop where
  | ctclaim (n o v) : o < 16 → NamedWrite t (.ctclaimWrite t) ⟨.channel, n, o⟩ v
  | inctl (n v) : NamedWrite t (.inctlWrite t) ⟨.inOut, n, 0⟩ v
  | inrel (n v) : NamedWrite t (.inrelWrite t) ⟨.inOut, n, 2⟩ v
  | inload (n v) : NamedWrite t (.inloadWrite t) ⟨.inOut, n, 6⟩ v
  | outctl (n v) : NamedWrite t (.outctlWrite t) ⟨.inOut, n, 7⟩ v
  | brctl (n v) : NamedWrite t (.brctlWrite t) ⟨.strip, n, 0⟩ v
  | wrlab (n o v) : o < 16 → NamedWrite t (.wrlabWrite t) ⟨.weirCommon, n, o⟩ v
  | gafloor (n o v) : 0x10 ≤ o → o < 0x20 → NamedWrite t (.gafloorWrite t) ⟨.gauge, n, o⟩ v
  | gasfl (n o v) : 0x20 ≤ o → o < 0x30 → NamedWrite t (.gasflWrite t) ⟨.gauge, n, o⟩ v
  | mntap (n o v) : o < 16 → NamedWrite t (.mntapWrite t) ⟨.mnCommon, n, o⟩ v
  | mnclk (n v) : NamedWrite t (.mnclkWrite t) ⟨.region, n, 1⟩ v
  | mnrcfg (n v) : NamedWrite t (.mnrcfgWrite t) ⟨.region, n, 2⟩ v
  | lctl (v) : NamedWrite t (.lctlWrite t .hwr) ⟨.context, t.val, 0x19⟩ v
  | rstat (v) : NamedWrite t (.rstatWrite t .hwr) ⟨.context, t.val, 0x26⟩ v
  | trigger (v) : v.getLsbD 0 = true → NamedWrite t (.captureTrigger t .hwr) ⟨.context, t.val, 0x33⟩ v
  | arm (v) : v.getLsbD 1 = true → NamedWrite t (.captureArm t .hwr) ⟨.context, t.val, 0x33⟩ v
  | stop (v) : v.getLsbD 0 = false → NamedWrite t (.captureStop t .hwr) ⟨.context, t.val, 0x33⟩ v

/-- The commands that are an HRD of a register with a latch. -/
inductive NamedRead (t : Ctx) : Instr → RegAddr → Prop where
  | ctsixl : NamedRead t (.ctsixlRead t) ⟨.ctCommon, 0, 0⟩
  | ptns : NamedRead t (.ptnsRead t) ⟨.ptp, 0, 0x0c⟩

/-- The commands that are an HWRC of value `v` to an offset of the own context block. -/
inductive NamedOwn (t : Ctx) : Instr → Nat → Word → Prop where
  | lctl (v) : NamedOwn t (.lctlWrite t .hwrc) 0x19 v
  | rstat (v) : NamedOwn t (.rstatWrite t .hwrc) 0x26 v
  | trigger (v) : v.getLsbD 0 = true → NamedOwn t (.captureTrigger t .hwrc) 0x33 v
  | arm (v) : v.getLsbD 1 = true → NamedOwn t (.captureArm t .hwrc) 0x33 v
  | stop (v) : v.getLsbD 0 = false → NamedOwn t (.captureStop t .hwrc) 0x33 v

/-! ### Strand ops -/

/-- The rows of the table for STRAND: the command and its entry (Table SL-4, R158). -/
inductive StrandRow (t : Ctx) : (Option Strip → Instr) → BitVec 11 → Prop where
  | openRegion (e) : StrandRow t (.strandOpenRegion t e) e
  | copy : StrandRow t (.copy t) 0x001
  | romNot : StrandRow t (.romNot t) 0x002
  | romAnd : StrandRow t (.romAnd t) 0x003
  | romOr : StrandRow t (.romOr t) 0x004
  | romXor : StrandRow t (.romXor t) 0x005
  | set : StrandRow t (.set t) 0x006
  | clr : StrandRow t (.clr t) 0x007
  | shn : StrandRow t (.shn t) 0x008
  | she : StrandRow t (.she t) 0x009
  | shs : StrandRow t (.shs t) 0x00a
  | shw : StrandRow t (.shw t) 0x00b
  | romAdd : StrandRow t (.romAdd t) 0x010
  | subc : StrandRow t (.subc t) 0x011
  | romSub : StrandRow t (.romSub t) 0x012
  | cmpc : StrandRow t (.cmpc t) 0x014
  | cmp : StrandRow t (.cmp t) 0x015
  | maxc : StrandRow t (.maxc t) 0x016
  | romMul : StrandRow t (.romMul t) 0x018
  | any : StrandRow t (.any t) 0x01c
  | inh : StrandRow t (.inh t) 0x020
  | outp : StrandRow t (.outp t) 0x021
  | dec128 : StrandRow t (.dec128 t) 0x040
  | scale : StrandRow t (.scale t) 0x048
  | fft8k : StrandRow t (.fft8k t) 0x050
  | magsq : StrandRow t (.magsq t) 0x058
  | envdm : StrandRow t (.envdm t) 0x060
  | resamp : StrandRow t (.resamp t) 0x068
  | selftest (k : Fin 16) : StrandRow t (.selftest t k) (BitVec.ofNat 11 (0x3e0 + k.val))

/-- The number that a field of planes, lowest bit first, holds in PE `j`. -/
def peValue (j : Nat) : List Plane → Nat
  | [] => 0
  | p :: ps => (if p.getLsbD j then 1 else 0) + 2 * peValue j ps

/-! ### Starts and stops -/

/-- The watchdog and C4 restarts within the last 600 s (Table SS-6). -/
def State.recentRestarts (s : State) : Nat := (s.power.retained.restarts.filter (fun x => decide (s.now < x + 600 * sec))).length

/-- From `s` to `t` the node has started (R48 to R51, R59, R69): RUN comes `i.took` after the origin, with the hold-up store full; it
runs on the socket code just read, with HALE released, no verdict yet, its planes zeroised, its memories empty unless a recipe was
loaded, and its samples counted from 0 as the rails came up; the ports are trained again after a power-on and stand as they were
otherwise, and what Keepsake's finding ledger holds is kept but for the pair that a reset cut off (R60). -/
structure Started (i : StartInput) (powerOn : Bool) (cut : Option Bool) (s t : State) : Prop where
  phase   : t.power.phase = .run ∧ t.power.token = true ∧ t.power.storeFull = true
  origin  : t.power.startedAt = s.now ∧ t.power.runAt = s.now + i.took ∧ t.now = s.now + i.took
  hale    : t.power.hale = false
  verdict : t.find.verdictAt = none
  code    : t.code.latched = decodeCode i.code ∧ t.code.drift = false
  keeps   : t.power.retained.s = (decodeCode i.code).s ∧ t.power.retained.p = (decodeCode i.code).p
            ∧ t.power.retained.z = (decodeCode i.code).z
  zero    : t.braid.planes = [] ∧ t.braid.prov = [] ∧ (t.lock.recipeIn = 0 → t.pool = [] ∧ t.eddy = [])
  samples : t.time.si.toNat = (i.took - startRails) * 96 / 15625 % 2 ^ 64
  ports   : ∀ p, (t.port p).state = (if powerOn then .training else (s.port p).state)
            ∧ (t.port p).relaying = (!powerOn && (s.port p).relaying)
  ledger  : t.ks.ledger = match cut with
            | some c => (s.ks.cutOff s.now c).ledger
            | none => s.ks.ledger

/-- From `s` to `t` a start has come to stand still before RUN (R54, R66): the code is latched, HALE is released, and `n` of the three
steps of the commit are done, which wait for the hold-up store (Table SS-2, Table SS-3 step 7). -/
structure StandsStill (i : StartInput) (n : Nat) (s t : State) : Prop where
  phase  : t.power.phase = .starting ∧ t.power.token = false ∧ t.power.hale = false
  origin : t.power.startedAt = s.now ∧ t.now = s.now
  code   : t.code.latched = decodeCode i.code
  store  : t.power.storeFull = decide (0 < n)
  commit : (n = 0 → t.lock.banks = s.lock.banks)
           ∧ (n ≤ 1 → t.lock.charterCtr = s.lock.charterCtr ∧ t.lock.patchCtr = s.lock.patchCtr)
           ∧ (n ≤ 2 → t.ks.socket = s.ks.socket)

/-- What stays queued of the own frames at a port when a stop begins: in HOLD the findings go to the finding ledger (Table SS-5). -/
def State.keptOwn (s : State) (p : Port) : List (Nat × Frame) :=
  if s.inAct mHold then (s.port p).qOwn.filter (fun e => !s.isFinding e.2) else (s.port p).qOwn

/-- From `s` to `t` a stop has begun (R64, R205, Table SS-5): HALE and the run token are withdrawn, no unit holds a store or a context,
no context waits or speculates, a strand op that no speculation began runs on to its boundary, and GOING stands last at each port that
is Up. -/
structure StopBegun (s t : State) (cause : StopCause) (reason : BitVec 32) : Prop where
  power : t.power = { s.power with
    phase := .stopping, token := false, hale := false, decidedAt := s.now, stopCause := cause, stopReason := reason,
    c4InStop := false }
  units : ∀ n, (t.hunit n).buffer = [] ∧ (t.hunit n).ctx = none
  ctxs  : ∀ c, (t.ctx c).waiting = none ∧ (t.ctx c).spec = none ∧ (t.ctx c).pend = [] ∧ (t.ctx c).queued = none
          ∧ (t.ctx c).sop = if (s.ctx c).spec.isSome then (s.ctx c).sop.filter (fun o => !o.spec) else (s.ctx c).sop
  going : ∀ p, (s.port p).state = .up → ∃ l f, (t.port p).qOwn = s.keptOwn p ++ l ++ [(s.now, f)]
    ∧ f.dst = nodeGroup ∧ f.payload = s.millrace 0x09 0
        ([cause.code] ++ bytesBE cause.expect 2 ++ bytesBE s.lock.nonce.toNat 8 ++ bytesBE reason.toNat 4 ++ [0])

/-! ### Packets -/

/-- The route table of NI `n` leads a packet to NI `e` (R233, R234). -/
def State.reaches (s : State) (n e : NiId) : Prop :=
  ∃ path r l, followRoute 7 niPlace[n].1 (s.routeTo n e).hops = (path, .ejected r l) ∧ niAt r l = some e

/-- The packet of a request that a command brings. -/
def requestPacket (cmd : BitVec 5) (q : Req) (us : List (BitVec 72)) (bad posted : Bool) : Packet :=
  { cmd := cmd, req := q, units := us, bad := bad, own := false, posted := posted, back := [], stage := .atNi, since := 0 }

/-- A packet leaves its NI at once and arrives undamaged (R233, R236, R237, R249, R265). -/
structure Travels (s : State) (p : Packet) : Prop where
  inject  : s.mayInject p = true
  whole   : p.req.damage = []
  reaches : s.reaches p.req.src p.req.dest

/-- A request that its NI sends, undamaged, for whoever it says (R231 to R236, R260). -/
structure Requested (s : State) (p : Packet) (n : Nat) : Prop where
  ready   : s.ready p.req p.posted = true
  sender  : s.mayRequest p.cmd p.req = true
  allowed : s.niAllows p.req (cmdWrites p.cmd) n = true
  travels : Travels s p

/-- The units at the packet's address are in a bank in service at its group's NI, and its class has a share there (R232, R257, R269). -/
structure Placed (s : State) (q : Req) : Prop where
  place  : q.phys.ni = q.dest
  share  : s.zeroShare q.qc q.phys = false
  bank   : (s.bank q.phys.bank).state ≠ .offline

/-- The bank performs the packet in the cycle in which it arrives, the units read clean, and the other port of an Eddy bank touches
none of them (R246, R247, R250, R255). -/
structure Served (s : State) (p : Packet) : Prop where
  placed : Placed s p.req
  serves : s.servesNow p.req p.cmd = true
  clean  : p.req.ecc = []
  apart  : p.req.phys.eddy = true → ∀ x ∈ ((s.bank p.req.phys.bank).port !p.req.portB).last, ∀ u ∈ unitsFrom p.req.phys p.req.units,
             x.unit ≠ u.bankUnit

/-- Nothing befalls the next packet that a part of the node sends (log 131). -/
def State.unharmed (s : State) : Prop := s.takeFate.1 = { damage := [], back := [], ecc := [] }

/-- The word exists (R245). -/
def Phys.there (p : Phys) : Prop := p.word < if p.eddy then 65536 else 2097152

/-! ### Ring link -/

/-- The relayed frames that wait at port `q` leave room for `g` within their 16 KiB (R297). -/
def State.relayRoom (s : State) (q : Port) (g : Frame) : Prop :=
  (((s.port q).qRelay.filter (fun h => !s.isOwn h)).map Frame.size).sum + g.size ≤ 16384

/-! ### Millrace messages -/

/-- The node takes `m` as a message of type `n` (R310, R311). -/
structure Takes (s : State) (m : Message) (n : Nat) : Prop where
  type   : m.type = n
  die    : s.consumes = true
  head   : m.headOk = true
  body   : m.bodyOk = true
  addr   : s.addressed m = true
  keeper : keeperOnly n = true → s.fromKeeper m = true

/-- The commands for a Millrace message, with its type (Table MR-2). -/
inductive MessageRow : (Message → Instr) → Nat → Prop where
  | pulse   : MessageRow .pulse 1
  | bundle  : MessageRow .bundle 3
  | timeout : MessageRow .bundleTransferTimeout 3
  | timeAux : MessageRow .timeAux 5
  | roll    : MessageRow .roll 6
  | census  : MessageRow .census 7
  | loss    : MessageRow .loss 8
  | going   : MessageRow .going 9
  | twin    : MessageRow .twin 10
  | restart : MessageRow .restart 11

/-- From `s` to `t` each port that is Up has queued, among what it had and what else it queued, an own Millrace message of the type to
`dst` with the body. -/
def QueuesMillrace (s t : State) (dst : BitVec 48) (type : Byte) (body : List Byte) : Prop :=
  ∀ p, (s.port p).state = .up → ∃ l g l', (t.port p).qOwn = (s.port p).qOwn ++ l ++ (s.now, g) :: l' ∧ g.dst = dst
    ∧ g.src = t.address ∧ g.etherType = etMillrace ∧ byteAt g.payload 1 = type ∧ fieldBE g.payload 4 2 = t.ring.tag.toNat
    ∧ g.payload.drop 16 = body

/-- The buddy `b` has been declared lost on `basis` (R315, R316): counted, VIGIL entered, and a LOSS on its behalf queued. -/
structure DeclaredLost (s t : State) (b : BitVec 6) (basis : BitVec 2) : Prop where
  lost  : (t.socket b).lost = true ∧ (t.socket b).basis = basis ∧ (t.socket b).losses = satInc (s.socket b).losses
  sent  : (t.socket b).lossAt = s.now ∧ ∃ body, QueuesMillrace s t nodeGroup 0x08 body
            ∧ body.length = 24 ∧ byteAt body 0 = b.zeroExtend 8 ∧ byteAt body 1 = basis.zeroExtend 8
            ∧ fieldBE body 4 8 = (t.socket b).serial.toNat ∧ fieldBE body 12 4 = (t.socket b).count.toNat
  vigil : t.modes.hw.getLsbD mVigil = true ∧ (s.modes.act = s.actOf → t.modes.act = t.actOf)

end Sys2Proof.Machine
end

