-- ==== Sys2Proof/WellFormed.lean ====
section
/-! DEFINITION. Well-formed commands: what the operand types cannot say and the spec's ranges do. exec gives every
command a meaning; a command that is not well formed is one that no node can meet. -/

namespace Sys2Proof

/-- A frame's payload fits the HSR LSDU (Table LN-1). -/
def Frame.wf (f : Frame) : Bool := decide (f.payload.length ≤ 1504)

/-- A message fits a frame. -/
def Message.wf (m : Message) : Bool := decide (m.bytes.length ≤ 1504)

/-- A write of whole units: LEN + 1 units at an even address (Table TR-4). -/
def unitsWf (q : Req) (units : List (BitVec 72)) : Bool :=
  decide (units.length = q.len.toNat + 1) && decide (q.addr.toNat % 2 = 0)

/-- A packet that carries one data unit, or asks for one. -/
def Req.single (q : Req) : Bool := decide (q.len = 0)

/-- Every error stands in the header or in one of the packet's `n` data units. -/
def Damage.within (n : Nat) (d : Damage) : Bool := d.all (fun h => decide (h.unit ≤ n))

/-- RUN comes after the commit's first instant, by 1.2 s, with the times in nanoseconds (Table SS-2). -/
def StartInput.wf (i : StartInput) : Bool := decide (400000000 ≤ i.took) && decide (i.took ≤ 1200000000)

/-- An instruction word that is not listed: a major opcode outside Table HW-3, or a pair whose slot A is outside Table HW-4 (R181, R186). -/
def undefinedWord (w : BitVec 18) : Bool :=
  if w.getLsbD 17 then
    let a := (w.extractLsb' 9 8).toNat
    [0x0d, 0x0e, 0x0f, 0x35, 0x36, 0x37].contains a || (decide (0x1a ≤ a) && decide (a ≤ 0x1f)) || (decide (0x2b ≤ a) && decide (a ≤ 0x2f))
      || (decide (0x3b ≤ a) && decide (a ≤ 0x3f)) || decide (0x5c ≤ a)
  else
    let m := (w.extractLsb' 11 6).toNat
    decide (m = 0) || (decide (0x0c ≤ m) && decide (m ≤ 0x0f)) || decide (0x26 ≤ m)

/-- The well-formed commands. -/
def Instr.wf : Instr → Bool
  | .powerOn i => i.wf
  | .returnAfterBrownOut i => i.wf
  | .stopComplete i => i.wf
  | .watchdogExpiry i => i.wf
  | .c4WaitExpiry i => i.wf
  | .thermalRelease i => i.wf
  | .dvfsInterval busy total => decide (busy ≤ total)
  | .hsrFrame _ f => f.frame.wf
  | .supervisionFrame _ f => f.frame.wf
  | .followUp _ f => f.frame.wf
  | .delayReq _ f _ => f.frame.wf
  | .pulse m => m.wf
  | .loss m => m.wf
  | .going m => m.wf
  | .twin m => m.wf
  | .census m => m.wf
  | .roll m => m.wf
  | .timeAux m => m.wf
  | .bundle m => m.wf
  | .bundleTransferTimeout m => m.wf
  | .restart m => m.wf
  | .nop _ (.undefined w) _ => undefinedWord w
  | .nop _ (.op _) _ => true
  | .rd q => q.damage.within 0
  | .rdi q => q.damage.within 0
  | .wr q us _ => unitsWf q us && q.damage.within us.length
  | .wrp q us _ => unitsWf q us && q.damage.within us.length
  | .wrw q _ _ => q.single && q.damage.within 1
  | .regrd q => q.single && q.damage.within 0
  | .regwr q _ _ => q.single && q.damage.within 1
  | .bstr q us => decide (us.length = q.len.toNat + 1) && q.damage.within us.length
  | .ack _ _ d => d.within 0
  | .err _ _ d => d.within 0
  | _ => true

end Sys2Proof
end

