-- ==== Sys2Proof/Certificates/Slice0/Obligations.lean ====
section
/-! DEFINITION. The statements for the provers: what the commands do, by family, and what every step keeps. -/

open Sys2Proof Sys2Proof.Machine

/-! ### The queue and the step -/

/-- With a command at the front of the queue, a step is that command on the state whose queue is the rest. -/
def Obligations.StepRunsTheFrontCommand : Prop :=
  ∀ (c : Instr) (q : List Instr) (s : State), s.pending = c :: q → step s = exec c { s with pending := q }

/-- On an empty queue a step is one tick of 8 ns of the node's own clock and of the units' own work (the model's
choice, log 4), which places no command; without power nothing changes. -/
def Obligations.EmptyQueueTicks : Prop :=
  ∀ s : State, s.pending = [] → step s = .next s.tick ∧ s.tick.pending = [] ∧ (s.power.powered = false → step s = .next s)

/-- Every command answers a next state, and none touches the queue. The model's own choice here is that a command
whose conditions do not hold changes nothing and is no stop (log 4). -/
def Obligations.CommandsCompleteAndKeepTheQueue : Prop :=
  ∀ (c : Instr) (s : State), ∃ t, exec c s = .next t ∧ t.pending = s.pending

/-- Every step keeps the Pool and the Eddy in canonical form: rising keys, and no entry that equals what an unlisted
address reads as. The model's own choice here is what an unlisted address reads as (log 2). -/
def Obligations.StepKeepsMemoriesCanonical : Prop :=
  ∀ s t : State, s.memOk = true → step s = .next t → t.memOk = true

/-- Every step keeps the fuses: no counter of R74 falls and no enrolment of R83 is lost. -/
def Obligations.StepKeepsTheFuses : Prop := ∀ s t : State, step s = .next t → FusesKept s t

/-- What State.reset holds: the node without supply, with no command waiting, memories of zeros in their canonical
form, HALE released, no address tag, ports off, and fresh fault and finding records (R48, R65, R293, R359). The
model's own choice here is the values of a node that has never had supply (log 1) and the memories of zeros (log 2).
-/
def Obligations.ResetState : Prop :=
  let s := State.reset
  s.pending = [] ∧ s.power.powered = false ∧ s.power.phase = .off ∧ s.power.hale = false ∧ s.power.token = false
  ∧ s.memOk = true ∧ (∀ p : Phys, s.peek p = 0) ∧ s.braid.planes = [] ∧ s.haleSafe = true
  ∧ (∀ p, (s.port p).state = .off ∧ (s.port p).relaying = false) ∧ s.ring.tag = 0 ∧ s.ks.nextEntry = 1
  ∧ s.faults.stack = [] ∧ s.faults.waiting = [] ∧ s.find.verdictAt = none ∧ s.ptp.state = .unlocked
  ∧ (∀ c, (s.ctx c).state = .idle)

/-! ### Headwater: short ops and the Riffle -/

/-- R175, R186, Table HW-4: a stack op or an op on words in slot A leaves its effect on the data stack, then slot B
acts, and the next instruction follows. The model's own choice here is that the command of a short op is the pair with
that op in slot A (log 9). -/
def Obligations.StackAndWordOps : Prop :=
  ∀ cmd code act, StackRow cmd code act ∨ WordRow cmd code act → ∀ (t : Ctx) (b : BitVec 8) (bar : Bool) (s s1 s3 : State),
    Issues s t s1 → PairOk s1 t code b →
    shortOp b.toNat (s1.modArch t (fun a => { a with ds := act a.ds })) t = .ok s3 () →
    exec (cmd t b bar) s = .next (s3.seqAfter s1 t bar)

/-- R187: the shifts and BREV take their count and width from n[5:0] and act as Table HW-4 gives. -/
def Obligations.ShiftsAndBitReversal : Prop :=
  ∀ cmd code act, ShiftRow cmd code act → ∀ (t : Ctx) (b : BitVec 8) (bar : Bool) (s s1 s3 : State),
    Issues s t s1 → PairOk s1 t code b →
    shortOp b.toNat (s1.modArch t (fun a => { a with ds := act a.ds })) t = .ok s3 () →
    exec (cmd t b bar) s = .next (s3.seqAfter s1 t bar)

/-- R178, R222 to R224, R226: the ops on the return stack, the operand registers and the accumulators. R226: EXP(x) is
the number of leading bits of x that equal bit 35, minus one. -/
def Obligations.RiffleRegisterOps : Prop :=
  (∀ cmd code act, RegRow cmd code act ∨ RiffleRow cmd code act → ∀ (t : Ctx) (b : BitVec 8) (bar : Bool) (s s1 s3 : State),
     Issues s t s1 → PairOk s1 t code b →
     shortOp b.toNat (s1.modArch t act) t = .ok s3 () →
     exec (cmd t b bar) s = .next (s3.seqAfter s1 t bar))
  ∧ (∀ x : Word, isExp x (expWord x))

/-- R218 to R221: MAC and CMAC add the exact products of the signed halves to both accumulators, each fitted to 40
bits. R221 and R223's fit: a value that fits is kept without a flag; any other sets the flag and takes the nearer
limit under SAT, or else keeps its low bits. R219: the pointer's move by its step d, within its circle of length L
from base B, or along the 2 048 addresses. -/
def Obligations.MultiplyAccumulate : Prop :=
  (∀ (t : Ctx) (b : BitVec 8) (bar : Bool) (s s1 s3 : State), Issues s t s1 →
     let c := s1.ctx t
     let a := c.arch
     let buf := (s1.hunit c.unit).buffer
     let x := (youngest t (a.xp.zeroExtend 18) buf).getD (Mem.get 0 c.xram a.xp.toNat)
     let y := (youngest t (2048 + a.yp.zeroExtend 18) buf).getD (Mem.get 0 c.yram a.yp.toNat)
     let xh := (x.extractLsb' 18 18).toInt
     let xl := (x.extractLsb' 0 18).toInt
     let yh := (y.extractLsb' 18 18).toInt
     let yl := (y.extractLsb' 0 18).toInt
     let sg : Int := if a.neg then -1 else 1
     let after (re im : Int) (a : Arch) : Arch :=
       let r := fitTo 40 a.sat (a.acr.toInt + sg * re)
       let i := fitTo 40 a.sat (a.aci.toInt + sg * im)
       let moves := !a.alt || a.neg
       { a with
         acr := BitVec.ofInt 40 r.1, aci := BitVec.ofInt 40 i.1, ova := a.ova || r.2 || i.2,
         xp := if moves then movePointer a.xp a.xstep else a.xp,
         yp := if moves then movePointer a.yp a.ystep else a.yp,
         neg := if a.alt then !a.neg else a.neg }
     (PairOk s1 t 0x50 b → shortOp b.toNat (s1.modArch t (after (xh * yh) (xl * yl))) t = .ok s3 () →
       exec (.mac t b bar none) s = .next (s3.seqAfter s1 t bar))
     ∧ (PairOk s1 t 0x51 b →
       (let yl' := if a.conj then -yl else yl
        shortOp b.toNat (s1.modArch t (after (xh * yh - xl * yl') (xh * yl' + xl * yh))) t = .ok s3 ()) →
       exec (.cmac t b bar) s = .next (s3.seqAfter s1 t bar)))
  ∧ (∀ (w : Nat) (sat : Bool) (v : Int), 0 < w →
       (fits w v → fitTo w sat v = (v, false))
       ∧ (¬ fits w v → (fitTo w sat v).2 = true
           ∧ (sat = true → (fitTo w sat v).1 = if v < 0 then -(2 ^ (w - 1)) else 2 ^ (w - 1) - 1)
           ∧ (sat = false → (fitTo w sat v).1 = (BitVec.ofInt w v).toInt)))
  ∧ (∀ (p : BitVec 11) (st : BitVec 33),
       let d := (st.extractLsb' 0 11).toInt
       let l : Int := if st.extractLsb' 11 11 = 0 then 2048 else (st.extractLsb' 11 11).toNat
       let base : Int := (st.extractLsb' 22 11).toNat
       (base ≤ p.toNat ∧ (p.toNat : Int) ≤ base + l - 1 →
         (movePointer p st).toNat = (base + ((p.toNat : Int) - base + d) % l) % 2048)
       ∧ (¬(base ≤ p.toNat ∧ (p.toNat : Int) ≤ base + l - 1) → ((movePointer p st).toNat : Int) = (p.toNat + d) % 2048)
       ∧ movePointer p 0 = p)

/-- R179, R180: the indirect loads and stores take the address from bits [17:0] of the word on top. R189: one element
of each string op; none with CNT = 0, where SCANS pushes 0. R188: the CRC op takes b[7:0] and c[w - 1:0] and leaves
bits [35:w] zero, in one issue slot. The model's own choice here is that the command of a short op is the pair with
that op in slot A (log 9), and that a load completes within its instruction (log 24). -/
def Obligations.MemoryShortOps : Prop :=
  (∀ (t : Ctx) (b : BitVec 8) (bar : Bool) (s s1 s2 s3 : State) (v : Word), Issues s t s1 →
     let top := (s1.ctx t).arch.ds.getD 0 0
     let below := (s1.ctx t).arch.ds.getD 1 0
     (PairOk s1 t 0x40 b → s1.load t (top.extractLsb' 0 18) = .ok s2 v →
       shortOp b.toNat (s2.modArch t (fun x => { x with ds := replaceTop v x.ds })) t = .ok s3 () →
       exec (.ldi t b bar) s = .next (s3.seqAfter s1 t bar))
     ∧ (PairOk s1 t 0x42 b → s1.load t (top.extractLsb' 0 18) = .ok s2 v →
       shortOp b.toNat (s2.modArch t (fun x => { x with ds := v :: (top + 1) :: x.ds.drop 1 })) t = .ok s3 () →
       exec (.ldip t b bar) s = .next (s3.seqAfter s1 t bar))
     ∧ (PairOk s1 t 0x41 b → s1.store t (top.extractLsb' 0 18) below = .ok s2 () →
       shortOp b.toNat (s2.modArch t (fun x => { x with ds := x.ds.drop 2 })) t = .ok s3 () →
       exec (.sti t b bar) s = .next (s3.seqAfter s1 t bar))
     ∧ (PairOk s1 t 0x43 b → s1.store t (top.extractLsb' 0 18) below = .ok s2 () →
       shortOp b.toNat (s2.modArch t (fun x => { x with ds := (top + 1) :: x.ds.drop 2 })) t = .ok s3 () →
       exec (.stip t b bar) s = .next (s3.seqAfter s1 t bar)))
  ∧ (∀ (t : Ctx) (b : BitVec 8) (bar : Bool) (s s1 s2 s3 s4 : State) (m : Word), Issues s t s1 →
       let a := (s1.ctx t).arch
       let v := a.ds.getD 0 0
       let hit := (m ^^^ v) &&& (s2.ctx t).arch.scmask = 0
       (PairOk s1 t 0x44 b → a.cnt ≠ 0 → s1.load t a.src = .ok s2 m → s2.store t a.dst m = .ok s3 () →
         shortOp b.toNat (s3.modArch t (fun x => { x with src := x.src + 1, dst := x.dst + 1, cnt := x.cnt - 1 })) t = .ok s4 () →
         exec (.movs t b bar) s = .next (s4.seqAfter s1 t bar))
       ∧ (PairOk s1 t 0x45 b → a.cnt ≠ 0 → s1.store t a.dst v = .ok s3 () →
         shortOp b.toNat (s3.modArch t (fun x => { x with dst := x.dst + 1, cnt := x.cnt - 1 })) t = .ok s4 () →
         exec (.fills t b bar) s = .next (s4.seqAfter s1 t bar))
       ∧ (PairOk s1 t 0x46 b → a.cnt ≠ 0 → s1.load t a.src = .ok s2 m →
         shortOp b.toNat (s2.modArch t (fun x => { x with crca := crcsWord x m, src := x.src + 1, cnt := x.cnt - 1 })) t = .ok s4 () →
         exec (.crcs t b bar) s = .next (s4.seqAfter s1 t bar))
       ∧ (PairOk s1 t 0x47 b → a.cnt ≠ 0 → s1.load t a.src = .ok s2 m → hit →
         shortOp b.toNat (s2.modArch t (fun x => { x with ds := 1 :: x.ds })) t = .ok s4 () →
         exec (.scans t b bar) s = .next (s4.seqAfter s1 t bar))
       ∧ (PairOk s1 t 0x47 b → a.cnt ≠ 0 → s1.load t a.src = .ok s2 m → ¬ hit →
         shortOp b.toNat (s2.modArch t (fun x => { x with ds := 0 :: x.ds, src := x.src + 1, cnt := x.cnt - 1 })) t = .ok s4 () →
         exec (.scans t b bar) s = .next (s4.seqAfter s1 t bar))
       ∧ (∀ cmd code, (cmd, code) ∈ [(Instr.movs, (0x44 : BitVec 8)), (.fills, 0x45), (.crcs, 0x46)] → PairOk s1 t code b →
         a.cnt = 0 → shortOp b.toNat s1 t = .ok s4 () → exec (cmd t b bar) s = .next (s4.seqAfter s1 t bar))
       ∧ (PairOk s1 t 0x47 b → a.cnt = 0 → shortOp b.toNat (s1.modArch t (fun x => { x with ds := 0 :: x.ds })) t = .ok s4 () →
         exec (.scans t b bar) s = .next (s4.seqAfter s1 t bar)))
  ∧ (∀ (t : Ctx) (b : BitVec 8) (bar : Bool) (s s1 s3 : State) (x c : Word) (r : List Word),
       Issues s t s1 → PairOk s1 t 0x38 b → (s1.ctx t).arch.ds = x :: c :: r →
       let a := (s1.ctx t).arch
       let w := a.crcw.toNat
       let v := crcByte w a.crcp.toNat a.crcRefl (c.toNat % 2 ^ w) (x.toNat % 256)
       shortOp b.toNat (s1.modArch t (fun a => { a with ds := BitVec.ofNat 36 v :: r })) t = .ok s3 () →
       v < 2 ^ w ∧ exec (.crc t b bar) s = .next (s3.seqAfter s1 t bar))

/-- R175, R178, R186: with slot A listed, a code that Table HW-4 does not list in slot B makes the pair raise UND in
slot B, and neither op acts. R175: of a pair of listed codes, each of the three conditions raises PAIRDEP, and neither
op acts. R177, R178: with NOP in slot B, a short op raises DSUNF with too few items on the data stack, DSOVF where it
would leave more than sixteen, RSUNF on an empty return stack, and TOR raises RSOVF at depth twelve without RSWRAP;
BSLOT names slot A. R181, R186: a word with an unlisted major opcode or an unlisted code in slot A raises UND. The model's own choice
here is the pair as one command, with the unlisted words in NOP's (log 9), the word in BDATA (log 15), what the Riffle ops read (log 25)
and the free BSLOT of PAIRDEP (log 28). -/
def Obligations.CausesOfShortPairs : Prop :=
  (∀ cmd code, ShortCommand cmd code → ∀ (t : Ctx) (b : BitVec 8) (bar : Bool) (s s1 : State), Issues s t s1 →
     (usesCrc code = true → (s1.ctx t).arch.crcOk = true) → unlistedCode b = true →
     exec (cmd t b bar) s = .next (s1.cause t { code := 0x01, qual := 0, slot := 2, data := some (pairWord code b bar), ms := false }))
  ∧ (∀ cmd code, ShortCommand cmd code → ∀ (t : Ctx) (b : BitVec 8) (bar : Bool) (s s1 : State) (ia ib : ShortInfo), Issues s t s1 →
       shortInfo code.toNat = some ia → shortInfo b.toNat = some ib →
       (usesCrc code = true ∨ usesCrc b = true → (s1.ctx t).arch.crcOk = true) →
       (0 < ia.leaves ∧ 0 < ib.takes) ∨ (∃ r ∈ shortWrites code.toNat, r ∈ shortWrites b.toNat ∨ r ∈ shortReads b.toNat)
         ∨ (ia.mem = true ∧ ib.mem = true) ∨ (ia.ret = true ∧ ib.ret = true) →
       ∃ slot, exec (cmd t b bar) s
         = .next ((({ s1 with free := s1.free + 1 } : State).modArch t (fun _ => (s1.ctx t).arch)).cause t
             { code := 0x02, qual := 0, slot := slot, data := some (pairWord code b bar), ms := false }))
  ∧ (∀ cmd code, ShortCommand cmd code → ∀ (t : Ctx) (bar : Bool) (s s1 : State) (i : ShortInfo), Issues s t s1 →
       shortInfo code.toNat = some i → (usesCrc code = true → (s1.ctx t).arch.crcOk = true) →
       let a := (s1.ctx t).arch
       let raised (c : BitVec 6) : Out :=
         .next (s1.cause t { code := c, qual := 0, slot := 1, data := some (pairWord code 0 bar), ms := false })
       let enough := i.takes ≤ a.ds.length ∧ (code = 0x08 → (a.ds.getD 0 0).toNat < a.ds.length - 1)
       let room := a.ds.length - i.takes + i.leaves ≤ 16
       (¬ enough → exec (cmd t 0 bar) s = raised 0x03)
       ∧ (enough → ¬ room → exec (cmd t 0 bar) s = raised 0x04)
       ∧ (enough → room → (code = 0x0a ∨ code = 0x0b ∨ code = 0x0c) → a.rs = [] → exec (cmd t 0 bar) s = raised 0x05)
       ∧ (enough → room → code = 0x09 → 12 ≤ a.rs.length → a.rswrap = false → exec (cmd t 0 bar) s = raised 0x06))
  ∧ (∀ (t : Ctx) (bar : Bool) (w : BitVec 18) (s s1 : State), Issues s t s1 → undefinedWord w = true →
       exec (.nop t (.undefined w) bar) s
         = .next (s1.cause t { code := 0x01, qual := 0, slot := if w.getLsbD 17 then 1 else 0, data := some (w.zeroExtend 36), ms := false }))

/-! ### Headwater: long ops, registers and the Bell -/

/-- R181: LIT, LITU, LITS, ADDI and BANK, with the stack checks of R177 and the zero field of BANK. The model's own
choice here is the instruction's word in BDATA (log 15). -/
def Obligations.LiteralsAndBank : Prop :=
  ∀ (t : Ctx) (k : BitVec 11) (s s1 : State), Issues s t s1 →
    let ds := (s1.ctx t).arch.ds
    let push (vs : List Word) : Out := .next ((s1.modArch t (fun a => { a with ds := vs })).seqAfter s1 t false)
    (ds.length < 16 → exec (.lit t k) s = push (k.signExtend 36 :: ds))
    ∧ (ds.length < 16 → exec (.litu t k) s = push (k.zeroExtend 36 :: ds))
    ∧ (∀ x r, ds = x :: r → r.length < 16 → exec (.lits t k) s = push ((x * 2048 + k.zeroExtend 36) :: r))
    ∧ (∀ x r, ds = x :: r → r.length < 16 → exec (.addi t k) s = push ((x + k.signExtend 36) :: r))
    ∧ (k.extractLsb' 7 4 = 0 →
        exec (.bank t k) s = .next ((s1.modArch t (fun a => { a with bk := k.extractLsb' 0 7 })).seqAfter s1 t false))
    ∧ (16 ≤ ds.length → exec (.lit t k) s = .next (s1.cause t (syncCause 0x04 (longWord 0x01 k)))
        ∧ exec (.litu t k) s = .next (s1.cause t (syncCause 0x04 (longWord 0x02 k))))
    ∧ (ds = [] → exec (.lits t k) s = .next (s1.cause t (syncCause 0x03 (longWord 0x03 k)))
        ∧ exec (.addi t k) s = .next (s1.cause t (syncCause 0x03 (longWord 0x0b k))))
    ∧ (k.extractLsb' 7 4 ≠ 0 → exec (.bank t k) s = .next (s1.cause t (syncCause 0x01 (longWord 0x0a k))))

/-- R179, R180: what a load of context `t` answers. X and Y RAM and a buffered store of the same address give their
word and change nothing; the reserved banks raise BANKX, an address outside the windows raises NIWIN, with the address
in BDATA. R179: LD under BK, LDX and LDY push the word that their address loads. R180: what a store of context `t`
answers outside speculation. X and Y RAM take the word, a window's store joins the unit's buffer as its youngest
entry, a full buffer stalls, and a refused access changes nothing. R179: ST under BK, STX and STY pop the word that
they store; every other word of X and Y RAM stays. The model's own choice here is that an access completes within its
instruction or its drain (log 24). -/
def Obligations.LoadsAndStores : Prop :=
  (∀ (s : State) (t : Ctx) (addr : BitVec 18),
     let bank := addr.toNat / 2048
     let c := s.ctx t
     let buffered := youngest t addr (s.hunit c.unit).buffer
     (bank = 0 → s.load t addr = .ok s (buffered.getD (Mem.get 0 c.xram addr.toNat)))
     ∧ (bank = 1 → s.load t addr = .ok s (buffered.getD (Mem.get 0 c.yram (addr.toNat - 2048))))
     ∧ (2 ≤ bank → bank < 16 → s.load t addr = .raise s (syncCause 0x08 (addr.zeroExtend 36)))
     ∧ (16 ≤ bank → s.translate t addr false = none → s.load t addr = .raise s (syncCause 0x09 (addr.zeroExtend 36)))
     ∧ (∀ p v, 16 ≤ bank → s.translate t addr false = some p → buffered = some v → s.load t addr = .ok s v))
  ∧ (∀ (t : Ctx) (a : BitVec 11) (s s1 s2 : State) (v : Word), Issues s t s1 → (s1.ctx t).arch.ds.length < 16 →
       (s2.ctx t).arch.ds.length < 16 →
       let pushed : Out := .next ((s2.modArch t (fun x => { x with ds := v :: x.ds })).seqAfter s1 t false)
       (s1.load t ((s1.ctx t).arch.bk ++ a) = .ok s2 v → exec (.ld t a none) s = pushed)
       ∧ (s1.load t (0#7 ++ a) = .ok s2 v → exec (.ldx t a) s = pushed)
       ∧ (s1.load t (1#7 ++ a) = .ok s2 v → exec (.ldy t a) s = pushed))
  ∧ (∀ (s : State) (t : Ctx) (addr : BitVec 18) (v : Word), (s.ctx t).spec = none →
       let bank := addr.toNat / 2048
       let n := (s.ctx t).unit
       let room := (s.hunit n).buffer.length < 8
       (bank = 0 → room → s.store t addr v = .ok (s.modCtx t (fun c => { c with xram := Mem.set 0 c.xram addr.toNat v })) ())
       ∧ (bank = 1 → room →
           s.store t addr v = .ok (s.modCtx t (fun c => { c with yram := Mem.set 0 c.yram (addr.toNat - 2048) v })) ())
       ∧ (2 ≤ bank → bank < 16 → s.store t addr v = .raise s (syncCause 0x08 (addr.zeroExtend 36)))
       ∧ (16 ≤ bank → s.translate t addr true = none → s.store t addr v = .raise s (syncCause 0x09 (addr.zeroExtend 36)))
       ∧ (16 ≤ bank → s.translate t addr true ≠ none → room →
           s.store t addr v = .ok (s.modUnit n (fun u => { u with
             buffer := u.buffer ++ [{ ctx := t, addr := addr, val := v, spec := false, qc := s.label t }] })) ())
       ∧ ((bank < 2 ∨ (16 ≤ bank ∧ s.translate t addr true ≠ none)) → ¬ room → s.store t addr v = .stall s))
  ∧ (∀ (t : Ctx) (a : BitVec 11) (s s1 s2 : State) (v : Word) (r : List Word), Issues s t s1 → (s1.ctx t).arch.ds = v :: r →
       let popped := s1.modArch t (fun x => { x with ds := r })
       (popped.store t ((s1.ctx t).arch.bk ++ a) v = .ok s2 () → exec (.st t a) s = .next (s2.seqAfter s1 t false))
       ∧ (popped.store t (0#7 ++ a) v = .ok s2 () → exec (.stx t a) s = .next (s2.seqAfter s1 t false)
           ∧ (∀ k, k ≠ a.toNat → (s1.ctx t).spec = none → Mem.get 0 (s2.ctx t).xram k = Mem.get 0 (s1.ctx t).xram k))
       ∧ (popped.store t (1#7 ++ a) v = .ok s2 () → exec (.sty t a) s = .next (s2.seqAfter s1 t false)
           ∧ (∀ k, k ≠ a.toNat → (s1.ctx t).spec = none → Mem.get 0 (s2.ctx t).yram k = Mem.get 0 (s1.ctx t).yram k)))

/-- R182, R198: the branches and their targets, with the delay slot that follows at P + 1. R181, R182: a transfer or a
system op in a delay slot raises UND, and one at the end of a loop raises LOOPX (R192). The model's own choice here is
the instruction's word in BDATA (log 15). -/
def Obligations.BranchesAndPlaces : Prop :=
  (∀ (t : Ctx) (o : BitVec 11) (s s1 : State), Issues s t s1 → OpenPlace s1 t →
     let c := s1.ctx t
     let target := c.pc + 2 + o.signExtend 19
     let back : Word := (c.pc + 2).zeroExtend 36
     let room := c.arch.rs.length < 12 ∨ c.arch.rswrap = true
     (exec (.br t o) s = .next (s1.branchAfter s1 t target true))
     ∧ (∀ x r, c.arch.ds = x :: r →
         exec (.bz t o) s = .next ((s1.modArch t (fun a => { a with ds := r })).branchAfter s1 t target (decide (x = 0)))
         ∧ exec (.bnz t o) s = .next ((s1.modArch t (fun a => { a with ds := r })).branchAfter s1 t target (decide (x ≠ 0)))
         ∧ exec (.jmpi t 0) s
             = .next ((s1.modArch t (fun a => { a with ds := r })).branchAfter s1 t (x.extractLsb' 0 19) true)
         ∧ (room → exec (.calli t 0) s
             = .next ((s1.modArch t (fun a => { a with ds := r, rs := back :: a.rs.take 11 })).branchAfter s1 t
                 (x.extractLsb' 0 19) true)))
     ∧ (room → exec (.call t o) s
         = .next ((s1.modArch t (fun a => { a with rs := back :: a.rs.take 11 })).branchAfter s1 t target true))
     ∧ (∀ x r, c.arch.rs = x :: r →
         exec (.ret t 0) s = .next ((s1.modArch t (fun a => { a with rs := r })).branchAfter s1 t (x.extractLsb' 0 19) true)))
  ∧ (∀ (t : Ctx) (k : BitVec 11) (s s1 : State), Issues s t s1 →
       let rows : List (Nat × Instr) :=
         [(0x10, .br t k), (0x11, .bz t k), (0x12, .bnz t k), (0x13, .call t k), (0x14, .ret t k), (0x15, .jmpi t k), (0x16, .calli t k),
          (0x17, .brc t k), (0x18, .loop t k), (0x19, .leave t k), (0x1d, .mode t k), (0x1e, .wait t k), (0x1f, .yield t k),
          (0x20, .fence t k), (0x21, .retb t k), (0x23, .hwr t k), (0x25, .hwrc t k)]
       ∀ op i, (op, i) ∈ rows →
         ((s1.ctx t).branch ≠ none → exec i s = .next (s1.cause t (syncCause 0x01 (longWord op k))))
         ∧ ((s1.ctx t).branch = none → (s1.ctx t).atLoopEnd = true → exec i s = .next (s1.cause t (syncCause 0x07 (longWord op k)))))

/-- R184, R200: BRC with every result arrived follows the result; otherwise it takes its hint, keeps a checkpoint and
speculates. -/
def Obligations.BrcFollowsOrSpeculates : Prop :=
  ∀ (t : Ctx) (h : Bool) (o : BitVec 10) (s s1 : State), Issues s t s1 → OpenPlace s1 t → (s1.ctx t).spec = none →
    let c := s1.ctx t
    let target := c.pc + 1 + o.signExtend 19
    let field : BitVec 11 := BitVec.ofBool h ++ o
    (c.strandsDone = true → exec (.brc t field) s = .next (s1.jumpAfter s1 t (if c.result then target else c.pc + 1)))
    ∧ (c.strandsDone = false →
        let sp : Spec := { check := c.arch, brc := c.pc, other := if h then c.pc + 1 else target, taken := h, strands := 0,
                           held := none, limited := false, arrived := false }
        exec (.brc t field) s
          = .next (((s1.modCtx t (fun c => { c with spec := some sp })).modUnit c.unit
              (fun u => { u with spec := u.spec + 1 })).jumpAfter s1 t (if h then target else c.pc + 1)))

/-- R191, R192: LOOP opens a level or passes over its body; LEAVE closes the innermost one. R192: where an instruction
in sequence leads. Not at the end of a loop, to the next address; at LE of the innermost level the count falls by one
and, while it is not zero, execution goes to LS; the transfer of a delay slot overrides it. -/
def Obligations.Loops : Prop :=
  (∀ (t : Ctx) (n : BitVec 11) (s s1 : State), Issues s t s1 → OpenPlace s1 t →
     let c := s1.ctx t
     (∀ r, c.arch.ds = 0 :: r → n ≠ 0 → c.arch.levels < 3 →
       exec (.loop t n) s = .next ((s1.modArch t (fun a => { a with ds := r })).jumpAfter s1 t (c.pc + 1 + n.zeroExtend 19)))
     ∧ (∀ x r (h : c.arch.levels < 3), c.arch.ds = x :: r → n ≠ 0 → x ≠ 0 →
       exec (.loop t n) s = .next ((s1.modArch t (fun a =>
         { a with
           ds := r, levels := a.levels + 1, lc := a.lc.set c.arch.levels x, ls := a.ls.set c.arch.levels (c.pc + 1),
           le := a.le.set c.arch.levels (c.pc + n.zeroExtend 19) })).jumpAfter s1 t (c.pc + 1)))
     ∧ (∀ x r, c.arch.ds = x :: r → n ≠ 0 → 3 ≤ c.arch.levels →
       exec (.loop t n) s = .next (s1.cause t (syncCause 0x07 (longWord 0x18 n))))
     ∧ (n = 0 → exec (.loop t n) s = .next (s1.cause t (syncCause 0x01 (longWord 0x18 n))))
     ∧ (0 < c.arch.levels →
       exec (.leave t 0) s = .next ((s1.modArch t (fun a => { a with levels := a.levels - 1 })).jumpAfter s1 t (c.pc + 1)))
     ∧ (c.arch.levels = 0 → exec (.leave t 0) s = .next (s1.cause t (syncCause 0x07 (longWord 0x19 0)))))
  ∧ (∀ (c : Context),
       (∀ b, c.branch = some b → b.taken = true → c.sequel = { c with pc := b.target, branch := none })
       ∧ (c.branch = none → c.loopfz = true → c.sequel = { c with pc := c.pc + 1 })
       ∧ (c.branch = none → c.atLoopEnd = false → c.sequel.pc = c.pc + 1 ∧ c.sequel.arch = c.arch)
       ∧ (c.branch = none → c.atLoopEnd = true → c.arch.lc[c.arch.level] ≠ 1 →
           c.sequel.pc = c.arch.ls[c.arch.level]
           ∧ c.sequel.arch = { c.arch with lc := c.arch.lc.set c.arch.level (c.arch.lc[c.arch.level] - 1) })
       ∧ (c.branch = none → c.atLoopEnd = true → c.arch.levels = 1 → c.arch.lc[c.arch.level] = 1 →
           c.sequel.pc = c.pc + 1 ∧ c.sequel.arch.levels = 0))

/-- R189, R190: REPS with CNT = 0 completes at once with the effect of its final step, and with CNT = 1 after one
element. The model's own choice here is the operand that bounds the elements of one command (log 18). -/
def Obligations.RepsFinalStep : Prop :=
  ∀ (t : Ctx) (ne : Bool) (budget : Nat) (s s1 : State), Issues s t s1 → OpenPlace s1 t → (s1.ctx t).spec = none →
    let hi : BitVec 9 := (BitVec.ofBool ne).zeroExtend 9
    let c := s1.ctx t
    let v := c.arch.ds.getD 0 0
    let next := c.pc + 1
    (c.arch.cnt = 0 →
      exec (.repsMovs t hi budget) s = .next (s1.jumpAfter s1 t next)
      ∧ (c.arch.crcOk = true → exec (.repsCrcs t hi budget) s = .next (s1.jumpAfter s1 t next))
      ∧ (c.arch.ds ≠ [] → exec (.repsFills t hi budget) s
          = .next ((s1.modArch t (fun a => { a with ds := a.ds.drop 1 })).jumpAfter s1 t next)
        ∧ exec (.repsScans t hi budget) s
          = .next ((s1.modArch t (fun a => { a with ds := 0 :: a.ds.drop 1 })).jumpAfter s1 t next)))
    ∧ (c.arch.cnt = 1 → 0 < budget →
      let stands (q : State) := (q.ctx t).arch = c.arch ∧ (q.ctx t).pc = c.pc
      (∀ s3, c.arch.ds ≠ [] → s1.store t c.arch.dst v = .ok s3 () → stands s3 → exec (.repsFills t hi budget) s
          = .next ((s3.modArch t (fun a => { a with dst := a.dst + 1, cnt := 0, ds := a.ds.drop 1 })).jumpAfter s1 t next))
      ∧ (∀ m s2, s1.load t c.arch.src = .ok s2 m → stands s2 →
        (∀ s3, s2.store t c.arch.dst m = .ok s3 () → stands s3 → exec (.repsMovs t hi budget) s
            = .next ((s3.modArch t (fun a => { a with src := a.src + 1, dst := a.dst + 1, cnt := 0 })).jumpAfter s1 t next))
        ∧ (c.arch.crcOk = true → exec (.repsCrcs t hi budget) s
            = .next ((s2.modArch t (fun a => { a with crca := crcsWord a m, src := a.src + 1, cnt := 0 })).jumpAfter s1 t next))
        ∧ (c.arch.ds ≠ [] → (decide ((m ^^^ v) &&& c.arch.scmask = 0) ≠ ne) → exec (.repsScans t hi budget) s
            = .next ((s2.modArch t (fun a => { a with ds := 1 :: a.ds.drop 1 })).jumpAfter s1 t next))
        ∧ (c.arch.ds ≠ [] → (decide ((m ^^^ v) &&& c.arch.scmask = 0) = ne) → exec (.repsScans t hi budget) s
            = .next ((s2.modArch t (fun a => { a with ds := 0 :: a.ds.drop 1, src := a.src + 1, cnt := 0 })).jumpAfter s1 t next))))

/-- R184, R98, R208, R180: CONF pushes the partition result, MODE opens its shadow of four slots, RETB leaves the
handler for BEPC, and FENCE completes once the buffer is empty and every drained store of the context is acknowledged, and holds
until then. R185, R214: WAIT
ends at once on an event of its mask that holds or an instant already past, and replaces t with ev; otherwise it
releases the unit. YIELD ends the slice at once. The model's own choice here is that RETB takes BEPC and pops nothing
(log 86), LCTL at RETB (log 14), what is past of a ring time that wraps (log 21), and that the
response to a drained store comes back as the bank performs it (log 24). -/
def Obligations.SystemOps : Prop :=
  (∀ (t : Ctx) (s s1 : State), Issues s t s1 → (s1.ctx t).spec = none →
     let c := s1.ctx t
     (c.strandsDone = true → c.arch.ds.length < 16 → exec (.conf t 0) s
         = .next ((s1.modArch t (fun a => { a with ds := (if c.result then 1 else 0) :: a.ds })).seqAfter s1 t false))
     ∧ (c.strandsDone = false → c.arch.ds.length < 16 → exec (.conf t 0) s = .next s1)
     ∧ (OpenPlace s1 t → ∀ w r, c.arch.ds = w :: r → c.shadow = none → exec (.mode t 0) s
         = .next ((s1.modArch t (fun a => { a with ds := r })).modCtx t (fun c =>
             { c with shadow := some { left := 4, mask := w.extractLsb' 0 8 &&& 0x9f, pending := none }, pc := c.pc + 1,
                      time := c.time + 1, bar := false })))
     ∧ (OpenPlace s1 t → c.inBell = true → exec (.retb t 0) s
         = .next ((s1.modCtx t (fun c =>
             { c with
               inBell := false, loopfz := false, lctl := none,
               arch := match c.lctl with
                 | some l => { c.arch with levels := l.toNat }
                 | none => c.arch })).jumpAfter s1 t c.bepc))
     ∧ (OpenPlace s1 t → c.inBell = false → exec (.retb t 0) s = .next (s1.cause t (syncCause 0x01 (longWord 0x21 0))))
     ∧ (OpenPlace s1 t →
         let s2 := s1.drainUnit c.unit
         ((s2.hunit c.unit).buffer = [] → s2.unacked t = false → exec (.fence t 0) s = .next (s2.jumpAfter s1 t ((s2.ctx t).pc + 1)))
         ∧ ((s2.hunit c.unit).buffer ≠ [] ∨ s2.unacked t = true → exec (.fence t 0) s = .next (s2.setLimited t false))))
  ∧ (∀ (t : Ctx) (f : BitVec 11) (s s1 : State) (v : Word) (r : List Word), Issues s t s1 → OpenPlace s1 t →
       (s1.ctx t).spec = none → (s1.ctx t).shadow = none → (s1.ctx t).arch.ds = v :: r → f &&& 0x480 = 0 →
       let c := s1.ctx t
       let mask : BitVec 7 := f.extractLsb' 0 7
       let deadline : Option (Sum Nat Nat) :=
         if f.getLsbD 8 then some (.inr v.toNat) else if v = 0 then none else some (.inl (s1.now + v.toNat * 1000))
       let w : Waiting := { mask := mask, tt := f.getLsbD 9, deadline := deadline }
       (c.levels &&& mask ≠ 0 → ∃ q, exec (.wait t f) s = .next q ∧ (q.ctx t).state = .running ∧ (q.ctx t).pc = c.pc + 1
           ∧ (q.ctx t).arch.ds = (c.levels &&& mask).zeroExtend 36 :: r)
       ∧ (c.levels &&& mask = 0 → s1.waitDue w = true → ∃ q, exec (.wait t f) s = .next q ∧ (q.ctx t).state = .running
           ∧ (q.ctx t).pc = c.pc + 1 ∧ (q.ctx t).arch.ds = 0x100 :: r)
       ∧ (c.levels &&& mask = 0 → s1.waitDue w = false → ∃ q, exec (.wait t f) s = .next q ∧ (q.ctx t).state = .waiting
           ∧ (q.ctx t).waiting = some w ∧ (q.ctx t).pc = c.pc + 1 ∧ (q.ctx t).arch = c.arch ∧ (q.hunit c.unit).ctx = none)
       ∧ (∃ q, exec (.yield t 0) s = .next q ∧ (q.ctx t).state = .ready ∧ (q.ctx t).expired = false
           ∧ (q.ctx t).credit = c.credit - ((s1.now : Int) - c.sliceAt) ∧ (q.ctx t).pc = c.pc + 1 ∧ (q.ctx t).arch = c.arch
           ∧ (q.hunit c.unit).ctx = none))

/-- R193, R366, R369: HRD and HRDC push the register that the index names, and HWR and HWRC write it; an index outside
the map raises HRSX and an access that Table HR-3 does not grant raises HRSP, with the index in BDATA. The rows of the
table for single registers: HWR to a register that the row names, HRD of CTSIXL and PTNS, and HWRC to the own context
block. R237, R238: a transaction that something befalls waits for its response, which it pushes, or raises NIECC for an ERR. The model's
own choice here is that an access over the bus that nothing befalls completes within its instruction (log 116). -/
def Obligations.RegisterAccess : Prop :=
  (∀ (t : Ctx) (s s1 : State) (i v : Word) (r : List Word), Issues s t s1 →
     let c := s1.ctx t
     let index : BitVec 13 := i.extractLsb' 0 13
     let data : Word := index.zeroExtend 36
     let popped := s1.modArch t (fun x => { x with ds := r })
     (∀ a, c.arch.ds = i :: r → r.length < 16 → decodeIndex index = some a → popped.readGrant t a = true →
       (a.latches = false ∨ c.spec = none) → (a.block = .context ∨ popped.busOpen t index = true) →
       exec (.hrd t 0) s = .next ((((popped.busTrip t a 1 2).latch t a).modArch t (fun x =>
         { x with ds := popped.regRead t a :: x.ds })).seqAfter s1 t false))
     ∧ (c.arch.ds = i :: r → decodeIndex index = none → exec (.hrd t 0) s = .next (s1.cause t (syncCause 0x0c data)))
     ∧ (∀ a, c.arch.ds = i :: r → decodeIndex index = some a → popped.readGrant t a = false →
       exec (.hrd t 0) s = .next (s1.cause t (syncCause 0x0d data)))
     ∧ (OpenPlace s1 t → c.spec = none → c.arch.ds = i :: v :: r →
       (decodeIndex index = none → exec (.hwr t 0) s = .next (s1.cause t (syncCause 0x0c data)))
       ∧ (∀ a, decodeIndex index = some a → popped.writeGrant t a = false →
           exec (.hwr t 0) s = .next (s1.cause t (syncCause 0x0d data)))
       ∧ (∀ a s2, decodeIndex index = some a → popped.regWrite t a v = .done s2 → (a.block = .context ∨ popped.busOpen t index = true) →
           exec (.hwr t 0) s = .next ((s2.busTrip t a 2 1).jumpAfter s1 t (c.pc + 1)))
       ∧ (∀ a s2 f us, decodeIndex index = some a → a.block ≠ .context → popped.regWrite t a v = .done s2 →
           popped.fillOf t false (index.zeroExtend 18) = some f → f.reply = some (.units us) → (us.getD 0 (0, false)).2 = false →
           exec (.hwr t 0) s = .next (popped.jumpAfter s1 t (c.pc + 1))))
     ∧ (∀ a f, c.arch.ds = i :: r → r.length < 16 → decodeIndex index = some a → a.block ≠ .context → popped.readGrant t a = true →
       (a.latches = false ∨ c.spec = none) → popped.fillOf t false (index.zeroExtend 18) = some f →
       (∀ us, f.reply = some (.units us) → (us.getD 0 (0, false)).2 = false → exec (.hrd t 0) s = .next ((popped.modArch t (fun x =>
           { x with ds := (us.getD 0 (0, false)).1.extractLsb' 0 36 :: x.ds })).seqAfter s1 t false))
       ∧ (∀ e, f.reply = some (.err e) → exec (.hrd t 0) s
           = .next ((popped.modArch t (fun _ => c.arch)).cause t (syncCause 0x0a ((index.zeroExtend 18).zeroExtend 36))))
       ∧ (f.reply = none → ∃ q, exec (.hrd t 0) s = .next q ∧ (q.ctx t).pc = c.pc ∧ (q.ctx t).arch = c.arch))
     ∧ (∀ k : Fin 64, c.arch.ds.length < 16 →
       exec (.hrdc t (BitVec.ofNat 11 k.val)) s
         = .next ((s1.modArch t (fun x => { x with ds := s1.ctxReg t k.val :: x.ds })).seqAfter s1 t false))
     ∧ (∀ k : Fin 64, OpenPlace s1 t → c.spec = none → c.arch.ds = v :: r →
       exec (.hwrc t (BitVec.ofNat 11 k.val)) s = .next ((popped.writeCtx t k.val v).jumpAfter s1 t (c.pc + 1))))
  ∧ (∀ (t : Ctx) (s s1 s2 : State) (i v : Word) (r : List Word) (a : RegAddr), Issues s t s1 →
       (s.ctx t).arch.ds = (s1.ctx t).arch.ds → decodeIndex (i.extractLsb' 0 13) = some a →
       let c := s1.ctx t
       let popped := s1.modArch t (fun x => { x with ds := r })
       let direct := a.block = .context ∨ popped.busOpen t (i.extractLsb' 0 13) = true
       (∀ cmd, NamedWrite t cmd a v → OpenPlace s1 t → c.spec = none → c.arch.ds = i :: v :: r → popped.regWrite t a v = .done s2 → direct →
         exec cmd s = .next ((s2.busTrip t a 2 1).jumpAfter s1 t (c.pc + 1)))
       ∧ (∀ cmd, NamedRead t cmd a → c.spec = none → c.arch.ds = i :: r → r.length < 16 → direct →
         exec cmd s = .next ((((popped.busTrip t a 1 2).latch t a).modArch t (fun x =>
           { x with ds := popped.regRead t a :: x.ds })).seqAfter s1 t false))
       ∧ (∀ cmd (k : Fin 64), NamedOwn t cmd k.val v → OpenPlace s1 t → c.spec = none → c.arch.ds = v :: r →
         exec cmd s = .next ((popped.writeCtx t k.val v).jumpAfter s1 t (c.pc + 1))))

/-- Tables HW-6 and MC-1: what a write of the own context block does. LCTL waits for RETB, RSTAT keeps its shifts at
23 or below (R224), clears OVA and ROV where 1 is written and sets the guard bits (R222), and a read-only offset
ignores it. R128, R156, R259, R284, R286, R289, R351: what a granted write does to the registers of the blocks that a
recipe may write. The model's own choice here is that LCTL is kept until RETB (log 14), and in MNRCFG that an ignored
request keeps its slot (log 46) and in MNCLK that codes 5 to 7 are barred (log 57). -/
def Obligations.RegisterEffects : Prop :=
  (∀ (s : State) (t : Ctx) (v : Word),
     (s.writeCtx t 0x01 v = s.modArch t (fun a => { a with rswrap := v.getLsbD 0, rconv := v.getLsbD 1, sat := v.getLsbD 2 }))
     ∧ (s.writeCtx t 0x02 v = s.modCtx t (fun c => { c with ben := v.extractLsb' 0 7 }))
     ∧ (s.writeCtx t 0x03 v = s.modCtx t (fun c => { c with bellv := v.extractLsb' 0 19 }))
     ∧ (s.writeCtx t 0x04 v = s.modCtx t (fun c => { c with bepc := v.extractLsb' 0 19 }))
     ∧ (s.writeCtx t 0x08 v = s.modArch t (fun a => { a with bk := v.extractLsb' 0 7 }))
     ∧ (s.writeCtx t 0x09 v = s.modArch t (fun a => { a with src := v.extractLsb' 0 18 }))
     ∧ (s.writeCtx t 0x0a v = s.modArch t (fun a => { a with dst := v.extractLsb' 0 18 }))
     ∧ (s.writeCtx t 0x0b v = s.modArch t (fun a => { a with cnt := v }))
     ∧ (s.writeCtx t 0x0c v = s.modArch t (fun a => { a with crcp := v.extractLsb' 0 32 }))
     ∧ (s.writeCtx t 0x0d v = s.modArch t (fun a => { a with crcw := v.extractLsb' 0 6, crcRefl := v.getLsbD 6 }))
     ∧ (s.writeCtx t 0x0e v = s.modArch t (fun a => { a with crca := v.extractLsb' 0 32 }))
     ∧ (s.writeCtx t 0x0f v = s.modArch t (fun a => { a with scmask := v }))
     ∧ (s.writeCtx t 0x19 v = s.modCtx t (fun c => { c with lctl := some (v.extractLsb' 0 2) }))
     ∧ (∀ k : Fin 3, s.writeCtx t (0x10 + k.val) v = s.modArch t (fun a => { a with lc := a.lc.set k v })
         ∧ s.writeCtx t (0x13 + k.val) v = s.modArch t (fun a => { a with ls := a.ls.set k (v.extractLsb' 0 19) })
         ∧ s.writeCtx t (0x16 + k.val) v = s.modArch t (fun a => { a with le := a.le.set k (v.extractLsb' 0 19) }))
     ∧ (∀ k : Fin 8, s.writeCtx t (0x1a + k.val) v = s.modArch t (fun a => { a with ops := a.ops.set k (v.extractLsb' 0 11) }))
     ∧ (s.writeCtx t 0x26 v = s.modArch t (fun a =>
         { a with
           rsh := Nat.min (v.toNat % 32) 23, wsh := Nat.min (v.toNat / 32 % 32) 23, out18 := v.getLsbD 10, conj := v.getLsbD 11,
           neg := v.getLsbD 12, alt := v.getLsbD 13, ova := a.ova && !v.getLsbD 14, rov := a.rov && !v.getLsbD 15,
           acr := v.extractLsb' 16 4 ++ a.acr.extractLsb' 0 36, aci := v.extractLsb' 20 4 ++ a.aci.extractLsb' 0 36 }))
     ∧ (∀ k ∈ [0x00, 0x05, 0x06, 0x07, 0x28, 0x29, 0x2a, 0x2b, 0x2c, 0x2d, 0x2e, 0x2f, 0x30, 0x31, 0x32, 0x34, 0x3f],
         s.writeCtx t k v = s.modArch t (fun a => a)))
  ∧ (∀ (s : State) (t : Ctx) (a : RegAddr) (v : Word), s.writeGrant t a = true →
       let done (f : State → Prop) : Prop := ∃ u, s.regWrite t a v = .done u ∧ f u
       (a.block = .channel → a.inst < 12 → done (fun u =>
         let ch : Chan := Fin.ofNat 12 a.inst
         let pins (w : BitVec 2) : Prop := ∃ c : Ctx, (u.chan ch).claims[c] = w
         (∀ c : Ctx, (u.chan ch).claims[c] = if c = t then v.extractLsb' 0 2 else (s.chan ch).claims[c])
         ∧ ((u.chan ch).pinconf = true ↔ pins 2 ∧ pins 3)
         ∧ ((u.chan ch).src = 1 ↔ pins 2 ∨ pins 3)
         ∧ ((u.chan ch).src = 2 ↔ ¬ pins 2 ∧ ¬ pins 3 ∧ pins 1)
         ∧ (u.chan ch).rng = (s.chan ch).rng ∧ ∀ k, k ≠ ch → u.chan k = s.chan k))
       ∧ (a.block = .gauge → a.off = 0x10 + t.val → done (fun u =>
           (u.gauge.floors[t]).toNat = Nat.min (v.toNat % 16) 14 ∧ ∀ c : Ctx, c ≠ t → u.gauge.floors[c] = s.gauge.floors[c]))
       ∧ (a.block = .gauge → a.off = 0x20 + t.val → done (fun u =>
           (∀ i : CellId, ((u.gauge.sfl[t])[i]).toNat = v.toNat / 2 ^ (9 * i.val) % 512)
           ∧ ∀ c : Ctx, c ≠ t → u.gauge.sfl[c] = s.gauge.sfl[c]))
       ∧ (a.block = .weirCommon → s.ownsClass t (v.toNat % 16) = true → done (fun u =>
           (u.weir.labels[t]).toNat = v.toNat % 16 ∧ ∀ c : Ctx, c ≠ t → u.weir.labels[c] = s.weir.labels[c]))
       ∧ (a.block = .mnCommon → a.off < 16 → (s.region (v.extractLsb' 0 4).toFin).owner = some t → done (fun u =>
           ∀ k : Strip, (u.mea.tapRegion[k]) = (if k.val = a.off then v.extractLsb' 0 4 else s.mea.tapRegion[k])
             ∧ u.mea.tapValid.getLsbD k.val = (if k.val = a.off then v.getLsbD 4 else s.mea.tapValid.getLsbD k.val)))
       ∧ (a.block = .region → a.inst < 16 → a.off = 1 → done (fun u =>
           let r : Region := Fin.ofNat 16 a.inst
           let src := v.toNat % 8
           let barred := 4 < src ∨ src = 4 ∧ (a.inst = 0 ∨ (s.region (Fin.ofNat 16 (a.inst + 15))).owner ≠ (s.region r).owner)
           (barred → u.region r = { s.region r with cfgerr := true })
           ∧ (¬ barred → (u.region r).sw = true ∧ (u.region r).newSource.toNat = src ∧ (u.region r).newDiv = v.extractLsb' 3 8
               ∧ (u.region r).source = (s.region r).source ∧ (u.region r).cfgerr = (s.region r).cfgerr)))
       ∧ (a.block = .region → a.inst < 16 → a.off = 2 → v.getLsbD 2 = true → done (fun u =>
           let r : Region := Fin.ofNat 16 a.inst
           let slot : BitVec 2 := v.extractLsb' 0 2
           let ignored := (s.region r).reqSlot.isSome = true ∨ (∃ e, s.mea.engine = some e ∧ e.1 = r)
             ∨ (s.region r).slots.getLsbD slot.toNat = false
           (ignored → u.mea.queue = s.mea.queue ∧ u.region r = { s.region r with cfgerr := true })
           ∧ (¬ ignored → u.mea.queue = s.mea.queue ++ [r] ∧ (u.region r).reqSlot = some slot ∧ (u.region r).state = (s.region r).state)))
       ∧ (a.block = .inOut → a.inst < 16 → a.off = 0 → done (fun u =>
           let i := (s.strip (stripOf a.inst)).inlet
           let j := (u.strip (stripOf a.inst)).inlet
           let base := v.toNat / 2 ^ 14 % 2048
           let lenM1 := v.toNat / 64 % 256
           let same := v.toNat % 32 = i.src.toNat ∧ lenM1 = i.lenM1.toNat ∧ base = i.base.toNat
           ((0x7f7 < base + lenM1 ∨ i.en = true ∧ ¬ same) → j = { i with cfgerr := true })
           ∧ (base + lenM1 ≤ 0x7f7 → (i.en = true → same) → j.en = v.getLsbD 5 ∧ j.src.toNat = v.toNat % 32 ∧ j.lenM1.toNat = lenM1
               ∧ j.base.toNat = base ∧ j.cfgerr = i.cfgerr ∧ (v.getLsbD 5 = false → j.filled = 0))))
       ∧ (a.block = .inOut → a.inst < 16 → a.off = 7 → s.ownsClass t (v.toNat / 2 % 16) = true → done (fun u =>
           (u.strip (stripOf a.inst)).outlet
             = { (s.strip (stripOf a.inst)).outlet with en := v.getLsbD 0, qc := v.extractLsb' 1 4 }))
       ∧ (a.block = .strip → a.inst < 16 → a.off = 0 → done (fun u =>
           u.strip (stripOf a.inst) = { s.strip (stripOf a.inst) with nsmode := v.extractLsb' 0 2, ewwrap := v.getLsbD 2 })))

/-- R366 to R368, Table HR-3: of the blocks that one tenant may write and another not. Every tenant reads the gauge,
but it writes its own floors alone; a context block belongs to its tenant alone; the units, the Sluice, the Lock views
and the modes are written by none. R364, R365: the map decodes 6 008 indices, and the instance and offset give the
index back. -/
def Obligations.AccessAndIndexMap : Prop :=
  (∀ (s : State) (t : Ctx) (a : RegAddr) (v : Word),
     (a.block = .context → (s.readGrant t a = decide (a.inst = t.val)) ∧ (s.writeGrant t a = decide (a.inst = t.val)))
     ∧ (a.block ∈ [Block.unit, .sluice, .coeff, .ctCommon, .route, .router, .bank, .port, .ringMap, .ptp, .lock, .modes] →
         s.readGrant t a = true ∧ s.regWrite t a v = .refused)
     ∧ (a.block = .gauge → a.off ≠ 0x10 + t.val → a.off ≠ 0x20 + t.val → s.readGrant t a = true ∧ s.regWrite t a v = .refused)
     ∧ (a.block = .channel → a.off ≠ t.val → s.readGrant t a = true ∧ s.regWrite t a v = .refused)
     ∧ (a.block = .strip ∨ a.block = .inOut → s.ownsStrip t (Fin.ofNat 16 a.inst) = false →
         s.readGrant t a = false ∧ s.regWrite t a v = .refused)
     ∧ (a.block = .strip ∨ a.block = .inOut → (s.strip (Fin.ofNat 16 a.inst)).offline = true → s.regWrite t a v = .refused)
     ∧ (a.block = .weirCommon → s.ownsClass t (v.toNat % 16) = false → s.regWrite t a v = .refused)
     ∧ (a.block = .faults → (s.readGrant t a = false ↔ (0x10 ≤ a.off ∧ a.off < 0x20 ∧ a.off ≠ 0x10 + t.val)) ∧ s.regWrite t a v = .refused))
  ∧ (((List.range 8192).filter (fun i => (decodeIndex (BitVec.ofNat 13 i)).isSome)).length = 6008
     ∧ ∀ (i : BitVec 13) (a : RegAddr), decodeIndex i = some a →
         ∃ m ∈ regMap, m.2.2.2 = a.block ∧ a.inst < m.2.1 ∧ a.off < m.2.2.1 ∧ i.toNat = m.1 + m.2.2.1 * a.inst + a.off)

/-- R199, R206, R210: a cause of an instruction outside handler, speculation and mode shadow enters the Bell. BEPC is
the instruction, or in a delay slot the branch, whose effects are undone and DS set; BCAUSE[5:0] is the code, LE is
set at the end of a loop; BSLOT and BDATA are the cause's; fetch goes to BELLV and the stacks stay. R201, R211: a
cause that arises in a speculation is held with it, and one in a mode shadow waits for the commit with the remaining
slots empty; the registers stay as they are. R207, R209, R210: at a boundary of a running context outside a handler
the oldest synchronous cause is taken, or else the asynchronous cause of lowest code, with AS; the others stay
pending, but for those whose CXBEN bit is now clear. Between a branch and its slot no Bell is taken. -/
def Obligations.BellEntries : Prop :=
  (∀ (s : State) (t : Ctx) (r : Raise) (d : Word), (s.ctx t).spec = none → (s.ctx t).shadow = none → (s.ctx t).inBell = false →
     r.data = some d →
     let c := s.ctx t
     let q := s.cause t r
     let e := q.ctx t
     e.pc = c.bellv ∧ e.inBell = true ∧ e.loopfz = true ∧ e.branch = none ∧ e.bslot = r.slot ∧ e.bdata = d
     ∧ e.bcause.extractLsb' 0 6 = r.code ∧ e.bcause.getLsbD 6 = c.branch.isSome ∧ e.bcause.getLsbD 7 = false
     ∧ e.bcause.getLsbD 8 = c.atLoopEnd ∧ e.bcause.getLsbD 9 = r.sp ∧ e.bcause.getLsbD 11 = false
     ∧ e.bcause.extractLsb' 12 4 = r.qual
     ∧ (c.branch = none → e.bepc = c.pc ∧ e.arch = c.arch)
     ∧ (∀ b, c.branch = some b → e.bepc = b.addr ∧ e.arch = b.undo)
     ∧ (q.hunit c.unit).bells = (s.hunit c.unit).bells + 1)
  ∧ (∀ (s : State) (t : Ctx) (r : Raise),
       (∀ sp, (s.ctx t).spec = some sp → s.cause t r = s.modCtx t (fun c =>
         { c with
           spec := some { sp with held := some { r with ms := c.shadow.isSome, sp := true } },
           shadow := c.shadow.map (fun sh => { sh with left := 0 }) }))
       ∧ (∀ sh, (s.ctx t).spec = none → (s.ctx t).shadow = some sh →
           s.cause t r = s.modCtx t (fun c => { c with shadow := some { sh with left := 0, pending := some { r with ms := true } } })))
  ∧ (∀ (s : State) (t : Ctx) (r : Raise) (rest : List Raise), s.running t = true → (s.ctx t).spec = none →
       let c := s.ctx t
       let enabled := c.pend.filter (fun x => c.enables x.code)
       (c.branch = none → c.shadow = none → c.inBell = false → c.sync = [] → enabled = [] →
         ∃ q, exec (.bell t) s = .next q ∧ (q.ctx t).pc = c.pc ∧ (q.ctx t).inBell = false ∧ (q.ctx t).pend = [] ∧ (q.ctx t).arch = c.arch)
       ∧ (c.branch = none → c.shadow = none → c.inBell = false → c.sync = [] → enabled = r :: rest →
         ∃ q, exec (.bell t) s = .next q ∧ (q.ctx t).pc = c.bellv ∧ (q.ctx t).bepc = c.pc ∧ (q.ctx t).inBell = true
           ∧ (q.ctx t).pend = rest ∧ (q.ctx t).bcause.getLsbD 11 = true ∧ (q.ctx t).bcause.extractLsb' 0 6 = r.code
           ∧ (q.ctx t).arch = c.arch)
       ∧ (c.branch = none → c.shadow = none → c.inBell = false → c.sync = r :: rest →
         ∃ q, exec (.bell t) s = .next q ∧ (q.ctx t).pc = c.bellv ∧ (q.ctx t).bepc = c.pc ∧ (q.ctx t).sync = rest
           ∧ (q.ctx t).pend = enabled ∧ (q.ctx t).bcause.getLsbD 9 = r.sp ∧ (q.ctx t).bcause.getLsbD 11 = false
           ∧ (q.ctx t).arch = c.arch)
       ∧ (c.branch ≠ none ∨ c.shadow ≠ none → exec (.bell t) s = .next s)
       ∧ (c.inBell = true → c.sync = [] → exec (.bell t) s = .next s))

/-- R213, R214, R215: the end of a slice leaves a swap pending; the timeout of a wait makes its context ready with bit
8 of ev; a free unit in service takes the ready context with the largest credit; QUANTUM follows an expired slice. The
model's own choice here is that a free unit's take counts as a swap (log 48). -/
def Obligations.SlicesAndSwaps : Prop :=
  ∀ (s : State) (n : UnitId) (t : Ctx),
    (s.unitReady n = true → (s.hunit n).ctx = some t → (s.hunit n).swapPend = false → (s.ctx t).spec = none →
      (s.ctx t).sliceLen ≤ s.sliceRun t →
      exec (.sliceExpiry n) s = .next (s.modUnit n (fun u => { u with swapPend := true })))
    ∧ (∀ w, (s.ctx t).waiting = some w → s.power.phase = .run → s.modes.parked = false → s.waitDue w = true →
      (s.ctx t).levels &&& w.mask = 0 →
      ∃ q, exec (.waitTimeout t) s = .next q ∧ (q.ctx t).state = .ready ∧ (q.ctx t).waiting = none
        ∧ (q.ctx t).lastEv = 0x100 ∧ (∀ v r, (s.ctx t).arch.ds = v :: r → (q.ctx t).arch.ds = 0x100 :: r)
        ∧ (w.tt = true → ∃ r ∈ (q.ctx t).sync, r.code = 0x12))
    ∧ (s.unitReady n = true → (s.hunit n).ctx = none → (s.hunit n).buffer = [] →
      (s.modUnit n countSwap).newRounds.richest = some t → s.readyCtxs ≠ [] → (s.ctx t).rerun = none →
      ∃ q, exec (.contextSwap n false) s = .next q ∧ (q.hunit n).ctx = some t ∧ (q.ctx t).state = .running
        ∧ (q.ctx t).unit = n ∧ (q.ctx t).sliceAt = s.now ∧ (q.hunit n).swaps = (s.hunit n).swaps + 1
        ∧ ((s.ctx t).expired = true → (s.ctx t).live = true → (s.ctx t).ben.getLsbD 6 = true →
            ∃ r ∈ (q.ctx t).pend, r.code = 0x26))

/-! ### Braid and Sluice -/

/-- R183, R139, R158: STRAND pops m and the words its mask names, puts them into the operand registers in ascending
order, and starts the op at its entry; with too few items it raises DSUNF, with a slot value of 7F8h to 7FFh PLANEX,
and with an entry that is not listed or lies outside the allotment SLENT. R183: the lowest set bit of m takes the word
directly below m; slots whose bits are clear keep their values. The model's own choice here is that all eight slots
are checked (log 41), the instruction's word in BDATA (log 15), and that the op runs within the command up to a stall
(log 19). -/
def Obligations.StrandStartsItsOp : Prop :=
  (∀ (t : Ctx) (cmd : Option Strip → Instr) (e : BitVec 11) (par : Option Strip) (s s1 : State) (m : Word) (rest : List Word),
     StrandRow t cmd e → Issues s t s1 → (s1.ctx t).spec = none → (s1.ctx t).arch.ds = m :: rest →
     let c := s1.ctx t
     let ops := takeOps m.toNat (List.finRange 8) rest c.arch.ops
     let planes := ops.toList.all (fun v => decide (v.toNat < 0x7f8))
     (maskCount m ≤ rest.length → planes = true → s1.badEntry t e = false → c.queued = none → c.sop = none →
       exec (cmd par) s = .next (((s1.modArch t (fun a => { a with ds := rest.drop (maskCount m), ops := ops })).startOp t e ops
         false par).seqAfter s1 t false))
     ∧ (rest.length < maskCount m → exec (cmd par) s = .next (s1.cause t (syncCause 0x03 (longWord 0x1b e))))
     ∧ (maskCount m ≤ rest.length → planes = false → exec (cmd par) s = .next (s1.cause t (syncCause 0x0e (longWord 0x1b e))))
     ∧ (maskCount m ≤ rest.length → planes = true → s1.badEntry t e = true →
       exec (cmd par) s = .next ((({ s1 with sluice := { s1.sluice with slent := satInc s1.sluice.slent } } : State).modArch t
         (fun _ => c.arch)).cause t (syncCause 0x0f (longWord 0x1b e)))))
  ∧ (∀ (m : Word) (rest : List Word) (ops : Vector (BitVec 11) 8) (k : Fin 8),
       let below := ((List.finRange 8).filter (fun j => decide (j < k) && m.getLsbD j.val)).length
       (takeOps m.toNat (List.finRange 8) rest ops)[k]
         = if m.getLsbD k.val then (rest.getD below 0).extractLsb' 0 11 else ops[k])

/-- R158, R162, R165: an op at a ROM entry that no patch overlays, and that neither shifts nor needs a run of four,
outside speculation and within the step limit, acts in every strip of the partition by its row of Table SL-4 and ends;
it commits at STRAND_OP_END. The model's own choice here is that the op runs within the command (log 19), that the
entries act in every PE (log 40), and the results that the release leaves open, which are free values (log 7). -/
def Obligations.RomEntriesRun : Prop :=
  ∀ (s : State) (t : Ctx) (e : BitVec 11) (slots : Vector (BitVec 11) 8), e.getLsbD 10 = false → s.byContract (entryAddr e) = true →
    e.toNat ≠ 0x020 → e.toNat ≠ 0x021 → e.toNat ≠ 0x050 →
    let s0 := s.saveOutlets t
    let o := s0.newOp t e slots false
    o.fix = false → (romShape e.toNat slots).steps.getD 0 ≤ 262144 →
    let r := s0.romWrite t o e.toNat (o.romSteps e.toNat s0.free) false
    ∃ q, s.startOp t e slots false none = q ∧ q.braid = r.1.braid
      ∧ (∃ o', (q.ctx t).sop = some o' ∧ o'.ended = .done ∧ o'.conf = r.2.conf ∧ o'.steps = r.2.steps)

/-- R165, R154 on fields of planes, lowest bit first, in every PE: ADD and the subtractions are exact with the carry
as the bit above, and MUL is the exact product. R137, Tables BR-2 and BR-3: one step in one PE. r is the LUT's bit 4a
+ 2b' + c; where e = 1 the destination takes r and C follows CAR; A follows ACT; where e = 0 both stay. -/
def Obligations.ArraySteps : Prop :=
  (∀ (x y : List Plane) (j : Nat), j < 1024 →
     (x.length = y.length →
       peValue j (addField x y 0).1 + (if (addField x y 0).2.getLsbD j then 2 ^ x.length else 0) = peValue j x + peValue j y
       ∧ ((addField x (notField y) ones).2.getLsbD j = decide (peValue j y ≤ peValue j x))
       ∧ peValue j (addField x (notField y) ones).1 = (peValue j x + (2 ^ x.length - peValue j y)) % 2 ^ x.length)
     ∧ peValue j (mulField x y) = peValue j x * peValue j y)
  ∧ (∀ (lut : Byte) (car act : Nat) (a b c active old : Plane) (j : Nat), j < 1024 → car < 4 → act < 4 →
       let index := (if a.getLsbD j then 4 else 0) + (if b.getLsbD j then 2 else 0) + (if c.getLsbD j then 1 else 0)
       let r := lut.getLsbD index
       let e := if act = 1 ∨ act = 3 then active.getLsbD j else true
       let q := peStep lut car act a b c active old
       q.dest.getLsbD j = (if e then r else old.getLsbD j)
       ∧ ((q.c.getD c).getLsbD j = if e then
           (match car with
            | 0 => c.getLsbD j
            | 1 => decide (2 ≤ (a.getLsbD j).toNat + (b.getLsbD j).toNat + (c.getLsbD j).toNat)
            | 2 => false
            | _ => true) else c.getLsbD j)
       ∧ ((q.a.getD active).getLsbD j =
           match act with
           | 2 => r
           | 3 => active.getLsbD j && r
           | _ => active.getLsbD j))

/-- R141, R143: the end of an op outside speculation commits its provisional planes and sends its Confluence result on
its way; the result's arrival sets the partition result and BRCFL of every strip of the partition. R203, R204: a
speculation resolves once its result has arrived. A wrong prediction restores the checkpoint, discards the speculative
stores and goes the other way, and HUMISS counts it; a right one without a held cause only ends the speculation and
clears the marks of its stores, and one with a held cause enters the Bell with it. R205: an asynchronous cause that no handler holds
rolls a speculation back to its BRC. R153, R213: a shift that has stalled for more than 64 cycles of CK_A while a swap or a stop is
pending is abandoned: its provisional writes go, and after a swap it will run again from its entry and slot values. The model's own
choice here is that results arrive one by one in the order of their ops (log 16), that a commit is a command of its
own (log 19) and that a cause rolls back as it arrives (log 146). -/
def Obligations.OpEndsAndSpeculation : Prop :=
  (∀ (s : State) (t : Ctx),
     (∀ o, (s.ctx t).sop = some o → o.ended = .done → o.spec = false → (s.ctx t).queued = none →
       ∃ q, exec (.strandOpEnd t) s = .next q ∧ (q.ctx t).sop = none ∧ q.braid.planes = (s.braid.commit (s.mine t)).planes
         ∧ (∀ v, o.conf = some v →
             (q.ctx t).results = (s.ctx t).results ++ [{ value := v, shares := o.shares, spec := false }])
         ∧ (o.conf = none → (q.ctx t).results = (s.ctx t).results))
     ∧ (∀ r rest, (s.ctx t).results = r :: rest → (∀ sp, (s.ctx t).spec = some sp → sp.arrived = false) →
       ∃ q, exec (.confluenceResult t) s = .next q ∧ (q.ctx t).result = r.value ∧ (q.ctx t).results = rest
         ∧ (∀ k ∈ s.partition t, (q.strip k).result = r.value ∧ (q.strip k).share = r.shares.getLsbD k.val)))
  ∧ (∀ (s : State) (t : Ctx) (sp : Spec), (s.ctx t).spec = some sp → sp.arrived = true →
       ((s.ctx t).result ≠ sp.taken →
         ∃ q, exec (.speculationResolve t) s = .next q ∧ (q.ctx t).spec = none ∧ (q.ctx t).arch = sp.check
           ∧ (q.ctx t).pc = sp.other ∧ (q.ctx t).branch = none
           ∧ (q.hunit (s.ctx t).unit).miss = satInc (s.hunit (s.ctx t).unit).miss
           ∧ (∀ n : UnitId, ∀ e ∈ (q.hunit n).buffer, e.ctx = t → e.spec = false))
       ∧ ((s.ctx t).result = sp.taken → sp.held = none → (s.ctx t).sop = none →
         ∃ q, exec (.speculationResolve t) s = .next q ∧ (q.ctx t).spec = none ∧ (q.ctx t).arch = (s.ctx t).arch
           ∧ (q.ctx t).pc = (s.ctx t).pc ∧ (∀ e ∈ (q.hunit (s.ctx t).unit).buffer, e.ctx = t → e.spec = false))
       ∧ (∀ r d, (s.ctx t).result = sp.taken → sp.held = some r → (s.ctx t).sop = none → (s.ctx t).shadow = none → (s.ctx t).inBell = false →
         (s.ctx t).branch = none → r.data = some d →
         ∃ q, exec (.speculationResolve t) s = .next q ∧ (q.ctx t).spec = none ∧ (q.ctx t).inBell = true ∧ (q.ctx t).bepc = (s.ctx t).pc
           ∧ (q.ctx t).bcause.extractLsb' 0 6 = r.code ∧ (q.ctx t).bcause.getLsbD 9 = r.sp))
  ∧ (∀ (s : State) (t : Ctx) (sp : Spec) (r : Raise), (s.ctx t).spec = some sp → (s.ctx t).live = true → s.power.phase = .run →
       (s.ctx t).enables r.code = true → (s.ctx t).inBell = false →
       let q := s.takeCause t r
       (q.ctx t).spec = none ∧ (q.ctx t).pc = sp.brc ∧ (q.ctx t).arch = sp.check ∧ (∃ x ∈ (q.ctx t).pend, x.code = r.code)
       ∧ (q.hunit (s.ctx t).unit).roll = satInc (s.hunit (s.ctx t).unit).roll)
  ∧ (∀ (s : State) (t : Ctx) (o : StrandOp), (s.ctx t).sop = some o → o.shift = true → (o.stall = .inlet ∨ o.stall = .outlet) →
       (s.power.phase = .stopping ∨ (s.running t = true ∧ (s.hunit (s.ctx t).unit).swapPend = true)) →
       64 < s.akCycles (s.now - o.stallAt) →
       ∃ q, exec (.shiftAbandon t) s = .next q ∧ (q.ctx t).sop = none ∧ (q.ctx t).rerun = some (o.entry, o.slots0)
         ∧ (q.hunit (s.ctx t).unit).abnd = satInc (s.hunit (s.ctx t).unit).abnd
         ∧ (∀ k ∈ s.partition t, (q.strip k).abnd = satInc (s.strip k).abnd))

/-- R170: a parity error on a fetch of the unit's strand op, of an open-region or patch RAM word, is counted in SLPERR and as a C1 event
and reloads the word when its copy in EB0 reads correctably; a bad copy of a word in no tenant's allotment counts in SLUNC alone, one in
a tenant's allotment halts its context, and one of a patch word is C4. A word that the op does not fetch meets no error. R356: a parity error in the running unit's state takes the unit
offline in place of the instruction. The model's own choice here is that the loss of a unit is recorded as log 17
says, and which units of EB0 hold a copy (log 148). -/
def Obligations.ParityErrors : Prop :=
  (∀ (s : State) (n : UnitId) (addr : BitVec 12) (ecc : Ecc) (o : StrandOp), s.unitOp n = some o →
     let held := 0xc00 ≤ addr.toNat ∨ (s.patchWord addr).isSome = true
     let copy := s.readCopy ecc
     (s.fetches o addr = true → held →
       (copy.1 = true → ∃ q, exec (.sluiceParityReload n addr ecc) s = .next q
         ∧ q.sluice = { s.sluice with perr := satInc s.sluice.perr } ∧ q.ctxs = s.ctxs ∧ q.pool = s.pool ∧ q.eddy = s.eddy)
       ∧ (copy.1 = false → 0xc00 ≤ addr.toNat → s.allotmentOf addr.toNat = none → ∃ q, exec (.sluiceParityReload n addr ecc) s = .next q
         ∧ q.sluice = { s.sluice with unc := satInc s.sluice.unc })
       ∧ (∀ t, copy.1 = false → 0xc00 ≤ addr.toNat → s.allotmentOf addr.toNat = some t → (s.ctx t).live = true → s.power.phase = .run →
         s.faults.stack.length < 4 → ∃ q, exec (.sluiceParityReload n addr ecc) s = .next q
         ∧ q.sluice.unc = satInc s.sluice.unc ∧ (q.ctx t).state = .halted)
       ∧ (copy.1 = false → addr.toNat < 0xc00 → s.power.phase = .run → ∃ q, exec (.sluiceParityReload n addr ecc) s = .next q
         ∧ q.sluice.unc = satInc s.sluice.unc ∧ q.power.phase = .stopping ∧ q.power.stopCause = .c4))
     ∧ (s.fetches o addr = false ∨ ¬ held → exec (.sluiceParityReload n addr ecc) s = .next s))
  ∧ (∀ (s : State) (ecc : Ecc), s.poison = [] → (s.bank 16).portA.last = [] → ecc ≠ .double → (s.readCopy ecc).1 = true)
  ∧ (∀ (s : State) (t : Ctx) (p : UnitPart) (a : BitVec 11) (b : BitVec 8) (bar : Bool) (cmd : Instr),
       (cmd = .ld t a (some p) ∨ cmd = .dup t b bar (some p) ∨ cmd = .mac t b bar (some p)) → s.running t = true →
       exec cmd s = .next (s.unitOffline (s.ctx t).unit t p))

/-- R145 to R147: a full buffer goes into the hold buffer and the inlet's ring, unless every ring plane is unreleased;
then it is lost. R151, R152: the oldest released buffer goes to 32 words from OUTADDR where its bank performs the packet at once, or is
dropped where no writable window takes it. The model's own choice here is that INSEQ counts a discarded buffer too (log 37) and that OUTADDR
advances for a dropped one (log 39). -/
def Obligations.InletsAndOutlets : Prop :=
  (∀ (k : Strip) (c : Ctx) (s : State), (s.strip k).owner = some c → (s.ctx c).sop = none → Mem.wf 0 s.braid.planes = true →
     let i := (s.strip k).inlet
     1024 ≤ i.filled →
     (i.count < i.lenM1.toNat + 1 → ∃ t, exec (.inletBufferComplete k) s = .next t
       ∧ (t.strip k).inlet = { i with
           fill := 0, filled := 0, done := i.done + 1, hold := i.fill, holdSome := true, unread := true,
           newer := true, planes := i.planes.set i.wr.toNat { i.cur with sijump := i.cur.sijump || decide (i.resumed = 1) } i.wr.isLt,
           wr := BitVec.ofNat 8 ((i.wr.toNat + 1) % (i.lenM1.toNat + 1)), count := i.count + 1, resumed := i.resumed - 1 }
       ∧ (t.strip k).steal = (s.strip k).steal + 1
       ∧ Mem.get 0 t.braid.planes (4096 * k.val + (i.base.toNat + i.wr.toNat) % 2040) = i.fill
       ∧ (∀ n, n ≠ 4096 * k.val + (i.base.toNat + i.wr.toNat) % 2040 → Mem.get 0 t.braid.planes n = Mem.get 0 s.braid.planes n))
     ∧ (i.lenM1.toNat + 1 ≤ i.count → ∃ t, exec (.inletBufferComplete k) s = .next t
       ∧ (t.strip k).inlet = { i with
           fill := 0, filled := 0, done := i.done + 1, lost := satInc i.lost, resumed := if i.resumed = 2 then 1 else i.resumed }
       ∧ t.braid.planes = s.braid.planes ∧ (t.tfind c).flags = (s.tfind c).flags ||| 0x80))
  ∧ (∀ (k : Strip) (c : Ctx) (b : Plane) (rest : List Plane) (s : State), (s.strip k).owner = some c → (s.ctx c).sop = none → s.memOk = true →
       (s.strip k).outlet.ready = b :: rest → s.power.phase = .run → s.quadBusy k = false →
       let o := (s.strip k).outlet
       (∀ p, s.outletTarget c o.addr = some p → p.there → s.unharmed →
         let x := ownPacket (quadNi k) cmdWrp c o.qc 0 p 15 (.outlet k) (outletUnits b) { damage := [], back := [], ecc := [] }
         Travels s x → Served s x →
         ∃ t, exec (.outletSend k) s = .next t
           ∧ (t.strip k).outlet = { o with ready := rest, addr := o.addr + 32, sent := o.sent + 1 }
           ∧ (∀ j, j < 32 → t.peek (p.plus j) = (b.extractLsb' (32 * j) 32).zeroExtend 36)
           ∧ (∀ q : Phys, (q.eddy ≠ p.eddy ∨ q.word < p.word ∨ p.word + 32 ≤ q.word) → t.peek q = s.peek q))
       ∧ (s.outletTarget c o.addr = none → ∃ t, exec (.outletSend k) s = .next t
           ∧ (t.strip k).outlet = { o with ready := rest, addr := o.addr + 32, dropped := satInc o.dropped, err := true }
           ∧ t.pool = s.pool ∧ t.eddy = s.eddy))

/-! ### Starts, stops, socket code and Gauge -/

/-- R48, R49, R51, R59, R69, R70: what each start that reaches RUN leaves, for fuses that read and spare strips that pass their check.
The watchdog's and the C4 restart count: the one that makes three runs house mode, and the one that makes four leaves the
node dormant. R54, R66, R68: a start that stands still before RUN, whose watchdog expires 1.5 s after its origin. The model's own choice
here is that a start is one command (log 10), the count of restarts in the last 600 s (log 93), that a restart after a wait needs VS
good (log 50), and that the fields of a main die off keep their values until the start (log 94). -/
def Obligations.StartsAndRestarts : Prop :=
  (∀ (i : StartInput) (s : State), i.fuseFault = false → i.badSpares = 0 → i.stalls = none →
    let counted (c : Instr) (cut : Option Bool) : Prop :=
      (s.recentRestarts < 3 → ∃ t, exec c s = .next t ∧ Started i false cut s t
        ∧ t.power.retained.count = s.recentRestarts + 1 ∧ t.lock.restartLoop = decide (s.recentRestarts = 2)
        ∧ (s.recentRestarts = 2 → t.lock.house = true))
      ∧ (3 ≤ s.recentRestarts → ∃ t, exec c s = .next t ∧ t.power.phase = .dormant ∧ t.power.hale = false ∧ t.power.token = false)
    (s.power.powered = false → ∃ t, exec (.powerOn i) s = .next t ∧ Started i true none s t ∧ t.power.retained.count = 0)
    ∧ (s.watchdogDue = true → counted (.watchdogExpiry i) i.cut)
    ∧ (s.power.phase = .waitC4 → s.passed s.power.decidedAt (10 * sec) = true → s.power.vs = .good → counted (.c4WaitExpiry i) none)
    ∧ (s.power.powered = true → s.power.vs ≠ .good → s.power.filter = none → s.power.phase = .waitSupply →
        ∃ t, exec (.returnAfterBrownOut i) s = .next t ∧ Started i false none s t ∧ t.power.vs = .good)
    ∧ (s.power.phase = .waitThermal → (∃ x, s.power.coolSince = some x ∧ s.passed x (10 * sec) = true) → s.power.vs = .good →
        ∃ t, exec (.thermalRelease i) s = .next t ∧ Started i false none s t)
    ∧ (s.power.phase = .stopping → s.flushesDone = true → s.power.stopCause = .restart → s.power.c4InStop = false →
        (s.power.vs = .good ∨ s.power.filter.isSome = true) →
        ∃ t, exec (.stopComplete i) s = .next t ∧ Started i false none s t ∧ t.power.retained.count = 0))
  ∧ (∀ (i : StartInput) (s : State) (n : Fin 4), i.fuseFault = false → i.stalls = some n →
    (s.power.powered = false → ∃ t, exec (.powerOn i) s = .next t ∧ StandsStill i n.val s t)
    ∧ (s.watchdogDue = true → s.recentRestarts < 3 → ∃ t, exec (.watchdogExpiry i) s = .next t ∧ StandsStill i n.val s t))
  ∧ (∀ s : State, s.power.phase = .starting → (s.watchdogDue = true ↔ s.power.startedAt + 1500 * ms ≤ s.now))

/-- R38, R39, R64 to R66, R340, R373: a brown-out, its filter of 10 ms to 11 ms, its stop, how long the store carries the node, and what
follows the end of a stop. Before RUN the filter's expiry powers the main die down with no stop. The model's own
choice here is that the end of a dip counts as VS good (log 50), the wait after a C4 fault in another stop (log 51),
and that contexts are idle with the rails off (log 94). -/
def Obligations.BrownOutsAndStops : Prop :=
  ∀ (i : StartInput) (s : State),
    (s.power.powered = true → s.power.vs ≠ .belowBrownOut →
      exec .brownOutThreshold s = .next { s with power := { s.power with
        vs := .belowBrownOut, below := some (s.power.below.getD s.now),
        filter := if (s.power.phase = .run ∨ s.power.phase = .starting) ∧ s.power.filter = none then some s.now else s.power.filter } })
    ∧ (∀ x, s.power.filter = some x → s.now ≤ x + 11 * ms → s.power.held = [] →
      exec .brownOutDipEnd s = .next { s with power := { s.power with vs := .good, filter := none, below := none, held := [] } })
    ∧ (∀ x cmd, s.power.filter = some x →
      (cmd = Instr.brownOutFilterExpiry ∧ x + 10 * ms ≤ s.now ∨ cmd = .brownOutDipEnd ∧ x + 11 * ms < s.now) →
      (s.power.phase = .run → ∃ t u, exec cmd s = .next u
        ∧ StopBegun { s with power := { s.power with filter := none, held := [] } } t .brownOut 0
        ∧ u = { t with power := { t.power with vs := if cmd = .brownOutDipEnd then .good else s.power.vs } })
      ∧ (s.power.phase = .starting → ∃ u, exec cmd s = .next u ∧ u.power.phase = .waitSupply ∧ u.power.filter = none
        ∧ u.power.hale = false ∧ u.power.token = false ∧ (∀ p, u.port p = s.port p) ∧ u.power.stopCause = s.power.stopCause
        ∧ u.power.vs = if cmd = .brownOutDipEnd then .good else s.power.vs))
    ∧ (s.power.powered = true → s.power.vs = .belowBrownOut → s.power.filter = none →
      exec .vsReturnAboveBrownOut s = .next { s with power := { s.power with vs := .between } })
    ∧ (s.power.powered = true → s.power.vs = .belowBrownOut → s.power.phase ≠ .run → s.power.phase ≠ .stopping →
      let carries := if s.power.phase = .waitSupply ∧ s.power.stopCause = .brownOut then 60 * ms else 30 * ms
      ∀ x, s.power.below = some x →
      let full := s.power.storeFull = true ∨ s.power.startedAt + 400 * ms ≤ x
      (¬ full ∨ s.power.phase ≠ .starting ∧ x + carries ≤ s.now →
        ∃ t, exec .storeExhausted s = .next t ∧ t.power.powered = false ∧ t.power.phase = .off ∧ t.power.hale = false
          ∧ (∀ p, (t.port p).state = .off ∧ (t.port p).relaying = false) ∧ t.ks = s.ks ∧ t.lock = s.lock ∧ t.time = s.time)
      ∧ (full → s.power.phase = .starting ∨ s.now < x + carries → exec .storeExhausted s = .next s))
    ∧ (s.power.phase = .stopping → s.flushesDone = false → exec (.stopComplete i) s = .next s)
    ∧ (s.power.phase = .stopping → s.flushesDone = true →
        (s.power.stopCause = .restart → s.power.c4InStop = true) →
        (s.power.stopCause = .brownOut → s.power.vs ≠ .good) →
        (s.power.stopCause ≠ .powerOn ∧ s.power.stopCause ≠ .watchdog ∧ s.power.stopCause ≠ .fuse) →
      ∃ t, exec (.stopComplete i) s = .next t
        ∧ t.power.phase = (match s.power.stopCause with
            | .brownOut => .waitSupply
            | .c4 => .waitC4
            | _ => if s.power.c4InStop then .waitC4 else .waitThermal)
        ∧ t.power.retained.cause = s.power.stopCause ∧ t.power.hale = false ∧ t.faults.stack = []
        ∧ (∀ c, (t.ctx c).state = .idle) ∧ (∀ p, t.port p = s.port p)
        ∧ t.ks.toReport = s.lock.inStop
        ∧ (t.ks.stop.counted.map (·.2)) = some { cause := s.power.stopCause, reason := s.power.stopReason, c4 := s.power.c4InStop })

/-- R343, R352, R376, Table FL-9: what the supervisor serves, what it counts, and what is C4, in RUN and in a start from +60 ms on;
during a stop a C4 is kept for its record. A parity error in a route-table entry or a window copy is C4, one in a cached line counts, and
the line leaves the cache (R356). R16: without the run
token HALE is released, and nothing else changes. The model's own choice here is which PLL stands by (log 13), what brings
a parity error (log 155), that the supervisor begins at +60 ms of a start and no sooner (log 10), and that a lapsed token stays lost until the next start (log 67). -/
def Obligations.SupervisorAndC4 : Prop :=
  (∀ s : State, s.power.phase = .run ∨ (s.power.phase = .starting ∧ s.power.startedAt + 60 * ms ≤ s.now) →
     (let good := (∀ i ∈ [if s.gauge.standbyB then 0 else 1, 2, 3, 4], s.gauge.pll.getLsbD i = true) ∧ s.gauge.rails = 0x1f
      (good → exec .watchdogService s = .next { s with power := { s.power with served := s.now } })
      ∧ (¬ good → exec .watchdogService s = .next s))
     ∧ (s.gauge.watching = true →
         (∀ long, exec (.pllLockLoss (if s.gauge.standbyB then .ckA2 else .ckA1) long) s
           = .next (s.countFault 0x71 (if s.gauge.standbyB then 1 else 0)))
         ∧ exec (.pllLockLoss .ckS false) s = .next s
         ∧ (∀ p long, p ≠ (if s.gauge.standbyB then .ckA2 else .ckA1) → (p = .ckS → long = true) →
             ∃ t, exec (.pllLockLoss p long) s = .next t ∧ StopBegun s t .c4 0
               ∧ t.gauge.pll.getLsbD (pllIndex p) = false)
         ∧ (∀ rail : Fin 5, ∃ t, exec (.railOutOfBand rail) s = .next t ∧ StopBegun s t .c4 0
               ∧ t.gauge.rails.getLsbD rail.val = false))
     ∧ (∀ drbg, ∃ t, exec (.lockSelfCheckFailure drbg) s = .next t ∧ StopBegun s t .c4 0))
  ∧ (∀ s : State, s.power.phase = .run → (∀ n e, StopBegun s (s.meetUpset (.route n e)) .c4 0) ∧ (∀ c w, StopBegun s (s.meetUpset (.window c w)) .c4 0))
  ∧ (∀ (s : State) (n : UnitId) (l : Nat), l ∈ (s.hunit n).icache →
      let t := s.meetUpset (.line n l)
      l ∉ (t.hunit n).icache ∧ (∀ x, x ≠ l → (x ∈ (t.hunit n).icache ↔ x ∈ (s.hunit n).icache)) ∧ (∀ m, m ≠ n → t.hunit m = s.hunit m)
      ∧ t = { s with units := t.units, faults := t.faults }
      ∧ countedSum 0x46 t.faults.counted = countedSum 0x46 s.faults.counted + 1)
  ∧ (∀ s : State, s.power.phase = .stopping → s.gauge.watching = true → ∀ rail : Fin 5,
      ∃ t, exec (.railOutOfBand rail) s = .next t ∧ t.power = { s.power with c4InStop := true })
  ∧ (∀ s : State, exec .runTokenLapse s = .next { s with power := { s.power with token := false, hale := false } })

/-- R27: the re-reads of the socket code, 10 s apart. One that differs releases HALE and begins or goes on with a
drift, which is recorded where it begins or differs from the re-read before it; the second in a row that agrees ends it. The model's own
choice here is that the branches of an outcome compare by their classes alone (log 152). -/
def Obligations.CodeRereads : Prop :=
  ∀ (r : CodeReading) (s : State), s.power.phase = .run → s.passed s.code.latchAt (10 * sec) = true →
    let o := decodeCode r
    let agrees := o.agrees s.code.latched = true
    let known := s.code.drift = true ∧ ∃ x, s.code.lastDiff = some x ∧ o.agrees x = true
    (¬ agrees → ∃ t, exec (.codeReread r) s = .next t ∧ t.power.hale = false
      ∧ t.code = { s.code with latchAt := s.code.latchAt + 10 * sec, drift := true, agree := 0, lastDiff := some o }
      ∧ (known → t.faults = s.faults)
      ∧ (¬ known → s.faults.waiting.length < 64 → ∃ e, t.faults.waiting = s.faults.waiting ++ [e] ∧ e.code = 0x48 ∧ e.cls = 1))
    ∧ (agrees → s.code.drift = true → s.code.agree = 0 → exec (.codeReread r) s
        = .next { s with code := { s.code with latchAt := s.code.latchAt + 10 * sec, agree := 1, lastDiff := none } })
    ∧ (agrees → s.code.drift = true → 1 ≤ s.code.agree → ∃ t, exec (.codeReread r) s = .next t
        ∧ t.power.hale = t.haleAllowed
        ∧ t.code = { s.code with latchAt := s.code.latchAt + 10 * sec, drift := false, agree := 0, lastDiff := none })
    ∧ (agrees → s.code.drift = false →
        exec (.codeReread r) s = .next { s with code := { s.code with latchAt := s.code.latchAt + 10 * sec } })

/-- R339, R340: the ceiling after a reading of the main die in RUN, the hard stop, and Backwater's readings during it.
R338, R345, R346, R376: the demand after an interval's busy fraction, a change of operating point, and a standby PLL
that does not lock in time. R107, R344, R347 to R350: the sentinel's estimate and its crossing, the range loop and the
link amplitude loop. The model's own choice here is when the ceiling is first lowered (log 68), the exact E of the
sentinel (log 69), and which sensor a reading of the stop is of (log 130). -/
def Obligations.GaugeLoops : Prop :=
  (∀ (x : BitVec 16) (s : State),
     let v := x.toInt
     let g := s.gauge
     let hotDue := match g.hot with
       | none => True
       | some y => y + 500 * ms ≤ s.now
     (s.power.phase = .run → v < 125 * 128 → ∃ t, exec (.dieTemperatureReading x) s = .next t
       ∧ t.gauge.die = x ∧ t.gauge.dieMax = (if g.dieMax.toInt < v then x else g.dieMax) ∧ t.power = s.power
       ∧ (120 * 128 ≤ v → t.gauge.ceiling = 0)
       ∧ (115 * 128 ≤ v → v < 120 * 128 → hotDue → t.gauge.ceiling = g.ceiling - 1)
       ∧ (115 * 128 ≤ v → v < 120 * 128 → ¬ hotDue → t.gauge.ceiling = g.ceiling)
       ∧ (112 * 128 ≤ v → v < 115 * 128 → t.gauge.ceiling = g.ceiling ∧ t.gauge.coolFrom = none)
       ∧ (v < 112 * 128 → g.coolFrom = none → t.gauge.ceiling = g.ceiling ∧ t.gauge.coolFrom = some s.now)
       ∧ (v < 112 * 128 → g.coolFrom.isSome = true → t.gauge.ceiling =
           if g.ceiling < 14 ∧ g.raisedAt + 2 * sec ≤ s.now then g.ceiling + 1 else g.ceiling))
     ∧ (s.power.phase = .run → 125 * 128 ≤ v → ∃ t, exec (.dieTemperatureReading x) s = .next t ∧ StopBegun s t .thermal 0)
     ∧ (s.power.phase = .waitThermal → exec (.dieTemperatureReading x) s = .next { s with
         gauge := { g with bwt := x },
         power := { s.power with coolSince := if v ≤ 100 * 128 then some (s.power.coolSince.getD s.now) else none } }))
  ∧ (∀ s : State, s.power.phase = .run → s.modes.parked = false →
       (∀ busy total, 0 < total → busy ≤ total →
         let high := if 9 * total < 10 * busy then s.gauge.highRun + 1 else 0
         let low := if 2 * busy < total then s.gauge.lowRun + 1 else 0
         let free := s.gauge.changedAt + 8 * ms ≤ s.now ∨ s.gauge.changedAt = 0
         let up := free ∧ 2 ≤ high ∧ s.gauge.demand < 14
         let down := free ∧ ¬(2 ≤ high ∧ s.gauge.demand < 14) ∧ 8 ≤ low ∧ 0 < s.gauge.demand
         ∃ t, exec (.dvfsInterval busy total) s = .next t
           ∧ t.gauge.busy.toNat = Nat.min 1023 (1024 * busy / total) ∧ t.gauge.step = s.gauge.step
           ∧ (up → t.gauge.demand = s.gauge.demand + 1 ∧ t.gauge.changedAt = s.now)
           ∧ (down → t.gauge.demand = s.gauge.demand - 1 ∧ t.gauge.changedAt = s.now)
           ∧ (¬ up → ¬ down → t.gauge.demand = s.gauge.demand ∧ t.gauge.changedAt = s.gauge.changedAt)
           ∧ t = { s with gauge := t.gauge } ∧ t.gauge.moving = t.changing)
       ∧ (∀ j, s.changing = some j → ∃ t, exec .operatingPointChange s = .next t ∧ t.gauge.step = j
           ∧ t.gauge.steps = s.gauge.steps + 1 ∧ t.gauge.standbyB = (!s.gauge.standbyB) ∧ t = { s with gauge := t.gauge }
           ∧ t.gauge.moving = if t.target = j then none else some t.target)
       ∧ (s.changing.isSome = true → exec .standbyPllLockTimeout s
           = .next { s.countFault 0x71 (if s.gauge.standbyB then 1 else 0) with gauge := { s.gauge with moving := none } }))
  ∧ (∀ s : State,
       (∀ m : Vector Nat 4, s.power.phase = .run → s.modes.parked = true → s.passed s.gauge.estAt (10 * sec) = true →
         ∃ t, exec (.sentinelEstimateUpdate m) s = .next t ∧ t.gauge.estAt = s.gauge.estAt + 10 * sec
           ∧ ∀ c : CellId, t.gauge.cells[c].e = s.gauge.cells[c].e + ((m[c] : Rat) - s.gauge.cells[c].e) / 8
             ∧ t.gauge.cells[c].cross = s.gauge.cells[c].cross
             ∧ (0 ≤ s.gauge.cells[c].e → t.gauge.cells[c].e ≤ 510 ^ 2 →
                 t.gauge.cells[c].e ≤ (t.gauge.cells[c].est.toNat : Rat) ^ 2
                 ∧ ∀ n : Nat, t.gauge.cells[c].e ≤ (n : Rat) ^ 2 → t.gauge.cells[c].est.toNat ≤ n))
       ∧ (∀ c : CellId, s.power.phase = .run → s.modes.parked = true → ∃ t, exec (.sentinelCrossing c) s = .next t
           ∧ t.modes.parked = false ∧ t.gauge.last = some (c, s.ringMs)
           ∧ t.gauge.cells[c].cross = satInc s.gauge.cells[c].cross
           ∧ (∀ d : CellId, t.gauge.cells[d].est = s.gauge.cells[d].est)
           ∧ (∀ x, (s.ctx x).state = .waiting → (∃ w, (s.ctx x).waiting = some w ∧ w.mask.getLsbD evWake = true) →
               (t.ctx x).state = .ready ∧ (t.ctx x).waiting = none))
       ∧ (∀ (ch : Chan) (peak : Nat) (clip : Bool), s.power.phase = .run → (s.chan ch).row = 3 →
           ∃ t, exec (.rangeLoopInterval ch peak clip) s = .next t
             ∧ t.gauge.loops[ch].peak = BitVec.ofNat 8 (Nat.min 255 (peak / 250))
             ∧ t.gauge.loops[ch].quiet = (if peak < 10000 then s.gauge.loops[ch].quiet + 1 else 0)
             ∧ (s.proofOpen = false → clip = true ∨ 14000 < peak → (t.chan ch).loopSel = true)
             ∧ (s.proofOpen = false → clip = false → peak < 10000 → 999 ≤ s.gauge.loops[ch].quiet → (t.chan ch).loopSel = false)
             ∧ (s.proofOpen = true ∨ (clip = false ∧ peak ≤ 14000 ∧ (10000 ≤ peak ∨ s.gauge.loops[ch].quiet < 999)) →
                 ∀ k, t.chan k = s.chan k))
       ∧ (∀ p, (s.port p).state = .training → (s.port p).only24 = true → s.passed (s.port p).trainAt (2 * sec) = true →
           exec (.linkAmplitudeFallback p) s
             = .next (s.modPort p (fun x => { x with only24 := false, freeAt := s.now + 600 * sec }))))

/-! ### Modes and findings -/

/-- R98, R99, R105, R115, R210: a commit, once the shadow has passed: the request takes its mask, ACT is that of R99,
HALE follows, a burst without its grant ends, and a cause of the shadow is taken after it. -/
def Obligations.ModeCommits : Prop :=
  ∀ (c : Ctx) (s : State) (sh : Shadow), (s.ctx c).shadow = some sh → sh.left = 0 →
    (sh.pending = none → ∃ t, exec (.modeCommit c) s = .next t ∧ (t.ctx c).shadow = none
      ∧ (∀ u : Ctx, t.modes.req[u] &&& 0x7f = (if u = c then sh.mask else s.modes.req[u]) &&& 0x7f)
      ∧ t.modes.hw = s.modes.hw
      ∧ t.modes.act = (allCtx.foldl (fun a u => a ||| (t.modes.req[u] &&& 0x7f)) 0 ||| t.modes.hw) &&& t.permit
      ∧ t.power.hale = t.haleAllowed ∧ (t.granted c mCapture = false → (t.ctx c).cap.burst = false)
      ∧ t.pool = s.pool ∧ t.eddy = s.eddy ∧ t.braid = s.braid)
    ∧ (∀ r, sh.pending = some r → exec (.modeCommit c) s
        = .next (((s.modCtx c (fun x => { x with shadow := none })).commitMode c sh.mask).takeSync c r))

/-- R99, R100, R107, R109, Table MD-2: the hardware entries of PROOF and HOLD. A window opens and ends, and the
keeper's silence begins HOLD and, where HOLD is in ACT, the diversion of findings. R107, R115, R253: parking, once the store buffers
are empty, with the Pool groups that follow when their queues are, the wake of the Pool, whose scrubbers go on from where the pause
began, and a burst that ends by its length. The model's own choice here is the plan of requested windows
(log 92), and that a scheduled window opens first (log 107). -/
def Obligations.HardwareEntries : Prop :=
  (∀ s : State,
     (s.power.phase = .run → s.proofOpen = false → ∀ (sched : Bool) (who : Option Ctx),
       ((sched = true ∧ who = none ∧ s.modes.dueAt ≤ s.wholeSecond)
         ∨ (sched = false ∧ s.wholeSecond < s.modes.dueAt ∧ s.requestDue = who ∧ who.isSome = true)) →
       ∃ t, exec .proofWindowOpen s = .next t
         ∧ t.modes.hw = s.modes.hw ||| 0x80 ∧ t.modes.act = t.actOf ∧ t.modes.parked = false
         ∧ t.modes.window = some
             { scheduled := sched, requester := who, openAt := s.now, closeAt := s.now + (if sched then 1200 else 400) * ms }
         ∧ (sched = true → t.modes.dueAt = s.wholeSecond + 3600 * sec)
         ∧ t.target = Nat.min t.gauge.ceiling 10
         ∧ (∀ x w, (s.ctx x).waiting = some w → w.mask.getLsbD evProof = true → (t.ctx x).waiting = none))
     ∧ (∀ w, s.modes.window = some w → s.proofOpen = true → w.closeAt ≤ s.now →
       ∃ t, exec (.proofWindowEnd none) s = .next t ∧ t.modes.hw = s.modes.hw &&& 0x7f ∧ t.modes.act = t.actOf
         ∧ t.modes.usedLog.head? = some (s.now, if w.scheduled then 1200 else 400, w.scheduled)
         ∧ (∀ u, w.requester = some u → (t.modes.req[u]).getLsbD 7 = false)
         ∧ (∀ x v, (s.ctx x).waiting = some v → v.mask.getLsbD evProof = true → (t.ctx x).waiting = none))
     ∧ (∀ v, s.find.verdictAt = some v → s.power.phase = .run → s.modes.keeperLost = false →
         v + 30 * sec ≤ s.now → s.mill.keeperAt + 30 * sec ≤ s.now →
       ∃ t, exec .keeperSilence s = .next t ∧ t.modes.keeperLost = true ∧ t.modes.hw = s.modes.hw ||| 0x20
         ∧ t.modes.act = t.actOf ∧ t.modes.replay = false ∧ t.modes.divert = t.inAct mHold ∧ t.modes.parked = false))
  ∧ (∀ s : State,
       (s.mayPark = true →
         let d := allUnits.foldl (fun s n => s.drainUnit n) s
         ((∀ n, (d.hunit n).buffer = []) → ∃ t, exec .arrayPark s = .next t ∧ t.modes.parked = true ∧ t.modes.parkedAt = d.now
           ∧ t.gauge.estAt = d.now ∧ t.braid = d.braid
           ∧ (∀ b : BankId, ∀ g : Group, bankGroup b = some g →
               (d.queueHolds g = false → (t.bank b).state ≠ .active ∧ t.modes.follow.getLsbD g.val = false)
               ∧ (d.queueHolds g = true → t.bank b = d.bank b ∧ t.modes.follow.getLsbD g.val = true)))
         ∧ ((∃ n, (d.hunit n).buffer ≠ []) → exec .arrayPark s = .next d))
       ∧ (∀ g : Group, ∃ t, exec (.poolWakeComplete g) s = .next t
         ∧ ∀ b : BankId,
             let risen := b.val / 4 = g.val ∧ (s.bank b).state = .waking ∧ (s.bank b).wakeAt + 40000 ≤ s.now
             (t.bank b).state = (if risen then .active else (s.bank b).state)
             ∧ (t.bank b).scrubAt = if risen then (s.bank b).scrubAt + (s.now - (s.bank b).downAt) else (s.bank b).scrubAt)
       ∧ (∀ c, (s.ctx c).cap.burst = true → (s.ctx c).cap.len ≠ 0 →
           (s.ctx c).cap.len.toNat ≤ (s.time.si - (s.ctx c).cap.fromSi).toNat →
         ∃ t, exec (.captureLenReached c) s = .next t ∧ (t.ctx c).cap.burst = false ∧ (t.ctx c).cap.endr = 2
           ∧ (∀ d, d ≠ c → t.ctx d = s.ctx d) ∧ t = { s with ctxs := t.ctxs, gauge := t.gauge }))

/-- R321, R322: the Lock takes the outbox's next record: the count of records taken rises, the verdict that the record
carries becomes the tenant's, and one refused counts as refused and leaves the verdict. A count more than four ahead
halts the context, and nothing is done on one that reads poisoned. R113, R323: the oldest finding of the ledger goes out with REPLAYED set, unless its record is absent (R60), and
after the last one HOLD ends. The model's own choice here is the order of the tests that refuse a record (log 80), and that only a live
context halts (log 115). -/
def Obligations.OutboxAndLedger : Prop :=
  (∀ (c : Ctx) (s : State) (p : Phys), s.outbox c = some p → s.power.phase = .run → s.modes.parked = false →
     let ahead := (s.headOf p - (s.tfind c).taken).toNat
     let r := p.plus (4 + 511 * ((s.tfind c).taken.toNat % 4))
     let s1 := s.lockRead p 1
     let s2 := s1.recordRead r
     (s1.cleanAt p = false → ∃ t, exec (.outboxRecordTake c) s = .next t ∧ (t.tfind c).taken = (s.tfind c).taken
       ∧ ((0 < ahead ∨ s.cleanAt p = false) → t = s1))
     ∧ (s.cleanAt p = true → s1.cleanAt p = true → 0 < ahead → ahead ≤ 4 → ∃ t, exec (.outboxRecordTake c) s = .next t
       ∧ (t.tfind c).taken = (s.tfind c).taken + 1
       ∧ ((s2.recRefused r).isSome = true → (t.tfind c).verdict = (s.tfind c).verdict
           ∧ (t.tfind c).refused = satInc (s.tfind c).refused)
       ∧ (s2.recRefused r = none → (t.tfind c).refused = (s.tfind c).refused
           ∧ (t.tfind c).verdict = (match ((s.peek r).extractLsb' 8 2).toNat with
               | 1 => .clear
               | 2 => .watch
               | 3 => .alarm
               | _ => (s.tfind c).verdict)))
     ∧ (s1.cleanAt p = true → 4 < ahead → (s.ctx c).live = true → ∃ t, exec (.outboxRecordTake c) s = .next t ∧ (t.ctx c).state = .halted
         ∧ t.modes.req[c] = 0))
  ∧ (∀ (s : State) (f : Finding) (rest : List Finding), s.ks.ledger = f :: rest → s.speaks = true → s.modes.replay = true →
       s.modes.keeperLost = false → s.modes.replayAt + 5 * ms ≤ s.now →
       ∃ t, exec .ledgerReplay s = .next t
         ∧ (f.absent = true → t.modes.replayAt = s.modes.replayAt)
         ∧ (f.absent = false → t.modes.replayAt = s.now ∧ ∀ p, (s.port p).state = .up → ∃ l f',
             (t.port p).qOwn = (s.port p).qOwn ++ (s.now, f') :: l
             ∧ f'.dst = keeperGroup ∧ f'.payload = s.millrace 0x02 0x01 (s.replayField ++ f.body))
         ∧ (rest ≠ [] → t.ks.ledger = rest ∧ t.modes.hw = s.modes.hw)
         ∧ (rest = [] → t.modes.replay = false ∧ t.modes.hw = s.modes.hw &&& 0xdf))

/-! ### Catchment and Meander -/

/-- R125, R126: a lane frame. A good one brings its sample bits to the border and its clip bits to the channels; a bad
one counts and brings the pattern 0, 1, 0, 1 ..; either carries the lane's sample index on by 40, and the sixteenth
bad one in a row takes the lane down. R123: at a change of SI the lane goes on from the new index, one time. (No strand op is under way, so that no buffer that completes lets one go on.)
The model's own choice here is that the lane's index is brought to the frame's low 16 bits (log 111). -/
def Obligations.LaneFrames : Prop :=
  ∀ (l : Lane) (codeOk : Bool) (bytes : Vector Byte 31) (s : State), s.power.phase = .run → (∀ c, (s.ctx c).sop = none) →
    let b := bytes.toList
    let x := s.ct.lanes[l]
    let ch (j : Fin 4) : Chan := ⟨4 * l.val + j.val, by omega⟩
    (x.up = true → frameGood codeOk b = true → ∃ t, exec (.laneFrame l codeOk bytes) s = .next t
      ∧ t.ct.lanes[l].run = 0 ∧ t.ct.lanes[l].up = true ∧ t.ct.lanes[l].bad = x.bad
      ∧ (t.ct.lanes[l].si - 40).toNat % 65536 = (byteAt b 2).toNat * 256 + (byteAt b 3).toNat
      ∧ (∀ (j : Fin 4) (p : Nat), p < 40 → (t.mea.samples[ch j]).getLsbD p = (byteAt b (4 + p / 2)).getLsbD (4 * (p % 2) + j.val))
      ∧ (∀ j : Fin 4, (t.chan (ch j)).clipNow = (byteAt b 24).getLsbD j.val
          ∧ (t.chan (ch j)).clip = (s.chan (ch j)).clip + (if (byteAt b 24).getLsbD j.val then 1 else 0))
      ∧ (∀ k : Chan, k.val / 4 ≠ l.val → t.mea.samples[k] = s.mea.samples[k] ∧ (t.chan k).clip = (s.chan k).clip))
    ∧ ((x.up = false ∨ frameGood codeOk b = false) → ∃ t, exec (.laneFrame l codeOk bytes) s = .next t
      ∧ (x.jump = none → t.ct.lanes[l].si = x.si + 40)
      ∧ (∀ old new, x.jump = some (old, new) → t.ct.lanes[l].si = (if x.si < old then x.si else new) + 40
          ∧ (¬ x.si < old → t.ct.lanes[l].jump = none))
      ∧ (∀ (j : Fin 4) (p : Nat), p < 40 → (t.mea.samples[ch j]).getLsbD p = decide (p % 2 = 1))
      ∧ (∀ k : Chan, (t.chan k).clip = (s.chan k).clip)
      ∧ (x.up = true → t.ct.lanes[l].bad = satInc x.bad ∧ t.ct.lanes[l].run = x.run + 1 ∧ t.ct.lanes[l].up = decide (x.run + 1 < 16)))

/-- R126, R129: the retraining of a down lane, and a change of range at a frame's boundary. R110, R133, Table CT-4:
the axes of the self-test in their order: the axis that was driven gets its result against STEXP of its range in force, valid only
when nothing spoiled it, and the channels of the next axis' cell show the actuation. Each third drives its axis at 4 g or 16 g by the
range, in phase for the first six steps of its sequence. The model's own choice here is that a self-test's measurements are operands
(log 109), and that the return of a lane shows in its own registers alone (log 110). -/
def Obligations.LanesRangesAndSelfTest : Prop :=
  (∀ s : State, s.power.phase = .run →
     (∀ (l : Lane) (ok : Bool), s.ct.lanes[l].up = false → s.ct.lanes[l].lastTry + 10 * ms ≤ s.now →
       ∃ t, exec (.laneRetrain l ok) s = .next t ∧ t = { s with ct := t.ct } ∧ t.ct.chans = s.ct.chans
         ∧ t.ct.lanes[l] = { s.ct.lanes[l] with
             retrains := satInc s.ct.lanes[l].retrains, lastTry := s.now, up := ok, run := if ok then 0 else s.ct.lanes[l].run }
         ∧ ∀ m : Lane, m ≠ l → t.ct.lanes[m] = s.ct.lanes[m])
     ∧ (∀ ch : Chan, s.bursting = false → (s.chan ch).wanted ≠ (s.chan ch).rng →
         let boundary := s.time.si - BitVec.ofNat 64 s.time.edge
         let under := Nat.min 240 (boundary - (s.ct.lanes[chanLane ch]).si).toNat
         ∃ t, exec (.rangeChange ch) s = .next t ∧ t = { s with ct := t.ct } ∧ t.ct.lanes = s.ct.lanes
           ∧ t.chan ch = { s.chan ch with
               rng := (s.chan ch).wanted, pend := false, prng := false, settle := 400 + under, rchg := boundary }
           ∧ (∀ k, k ≠ ch → t.chan k = s.chan k)
           ∧ ((∃ a, s.ct.axis = some a ∧ a.val / 3 = ch.val / 3) → t.ct.stInvalid = true))
     ∧ (∀ ch : Chan, s.bursting = true → ∃ t, exec (.rangeChange ch) s = .next t ∧ t = { s with ct := t.ct }
           ∧ (t.chan ch).rng = (s.chan ch).rng ∧ (t.chan ch).settle = (s.chan ch).settle
           ∧ ((s.chan ch).wanted ≠ (s.chan ch).rng → (t.chan ch).pend = true ∧ (t.chan ch).prng = (s.chan ch).wanted)
           ∧ (∀ k, k ≠ ch → t.chan k = s.chan k)))
  ∧ (∀ (ch : Chan) (s : State), s.axisDue ch = true →
       (s.ct.axis = none → ∃ t, exec (.selfTestAxis ch none) s = .next t ∧ t = { s with ct := t.ct }
         ∧ t.ct.axis = some ch ∧ t.ct.axisAt = s.now ∧ (t.chan ch).stix = s.time.si
         ∧ (∀ k, (t.chan k).stact = decide (k.val / 3 = ch.val / 3) ∧ (t.chan k).stres = (s.chan k).stres))
       ∧ (∀ a m, s.ct.axis = some a → ∃ t, exec (.selfTestAxis ch (some m)) s = .next t ∧ t = { s with ct := t.ct, free := t.free }
         ∧ t.ct.axis = some ch ∧ t.ct.axisAt = s.now ∧ (t.chan ch).stix = s.time.si ∧ t.ct.stInvalid = false
         ∧ (∀ k, (t.chan k).stact = decide (k.val / 3 = ch.val / 3))
         ∧ (let expected := if (s.chan a).rng then (s.ct.coeffs[a]).stexp64.toNat else (s.ct.coeffs[a]).stexp16.toNat
            (0 < expected → (((t.chan a).stres).extractLsb' 0 10).toNat = Nat.min 1023 (512 * m.response / expected))
            ∧ (0 < m.response → (((t.chan a).stres).extractLsb' 10 10).toNat = Nat.min 1023 (1024 * m.cross / m.response))
            ∧ (m.invalid = false → s.ct.stInvalid = false → (((t.chan a).stres).getLsbD 20 = true ↔
                90 * expected ≤ 100 * m.response ∧ 100 * m.response ≤ 110 * expected ∧ 100 * m.cross < 3 * m.response)))
         ∧ ((t.chan a).stres).getLsbD 21 = (m.invalid || s.ct.stInvalid)
         ∧ ((t.chan a).stres).extractLsb' 22 12 = ((s.chan a).stres).extractLsb' 22 12 + 1))
  ∧ (∀ (ch : Chan) (s : State), s.ct.axis = some ch →
       let g : Int := if (s.chan ch).rng then 16 else 4
       let half := (s.now - s.ct.axisAt) / 3125000
       (s.drive = some (ch, g) ∨ s.drive = some (ch, -g))
       ∧ (s.now - s.ct.axisAt < 6 * 12500000 → s.drive = some (ch, if half % 2 = 0 then g else -g)))

/-- R275, R276: an edge of a running tree. A flip-flop loads the bit of its LUT that the cell's four inputs select,
unless CE holds it, and the port bits become the tracks, each with the output of the cell that drives it. R14, R281: a neighbour's bit,
and at a region that is not direct a channel bit, the strobe and post ready, reach the cells two edges after the border, through two
flip-flops. The clock to the cells of a region that does not run is stopped (Table MN-6). The model's own choice here is the border
samples by the time since the frame (log 81). -/
def Obligations.TreeEdges : Prop :=
  (∀ (r : Region) (s : State), (s.region r).state = .running → s.treeRuns r = true →
    let x := s.region r
    let im := x.image
    let border := s.borderInputs r
    let seen (held : Vector Bool 40) : Vector Bool 40 :=
      Vector.ofFn (fun j => if x.synced im.inputs[j] = true then held[j] else border[j])
    let inp := seen x.sync2
    let n (b : Bool) (w : Nat) : Nat := if b then w else 0
    let lut (tr : Vector Bool 40) (o : Vector Bool 384) (i : Fin 384) : Bool :=
      (im.cells[i]).getLsbD (n (tr.toList.getD (24 + i.val % 16) false) 8 + n (tr.toList.getD (i.val / 16) false) 4
        + n (if i.val / 16 = 0 then inp.toList.getD (24 + i.val % 16) false else o.toList.getD (i.val - 16) false) 2
        + n (if i.val % 16 = 0 then inp.toList.getD (i.val / 16) false else o.toList.getD (i.val - 1) false) 1)
    let before := cellsOut im inp x.ffs
    ∃ t, exec (.regionTreeEdge r) s = .next t ∧ t = { s with mea := t.mea } ∧ (∀ u, u ≠ r → t.region u = s.region u)
      ∧ (let y := t.region r
         let after := cellsOut im (seen x.sync1) y.ffs
         y.image = im ∧ y.state = .running ∧ y.edges = x.edges + 1 ∧ y.fresh = false ∧ y.sync1 = border ∧ y.sync2 = x.sync1
         ∧ (∀ i : Fin 384, y.ffs[i]
             = if (im.cells[i]).getLsbD 18 = true ∧ (tracksOf im before).toList.getD (24 + i.val % 16) false = false then x.ffs[i]
               else lut (tracksOf im before) before i)
         ∧ (∀ k : Fin 24, y.outs.toList.getD k.val false = true ↔
             ∃ i : Fin 384, i.val / 16 = k.val ∧ (im.cells[i]).getLsbD 19 = true ∧ after[i] = true)
         ∧ (∀ k : Fin 16, y.outs.toList.getD (24 + k.val) false = true ↔
             ∃ i : Fin 384, i.val % 16 = k.val ∧ (im.cells[i]).getLsbD 20 = true ∧ after[i] = true)))
  ∧ (∀ (r : Region) (s : State), (s.region r).state ≠ .running → s.treeRuns r = true →
      ∃ t, exec (.regionTreeEdge r) s = .next t ∧ t = { s with mea := t.mea } ∧ (∀ u, u ≠ r → t.region u = s.region u)
        ∧ t.region r = { s.region r with
            edges := (s.region r).edges + 1, sync1 := s.borderInputs r, sync2 := (s.region r).sync1 })

/-- R275, Table MN-5 code 07h: in an image without a closed path through cells of REG = 0 the logic settles: a
registered cell shows its flip-flop and every other cell its LUT. -/
def Obligations.LogicSettles : Prop :=
  ∀ (im : Image) (inp : Vector Bool 40) (ffs : Vector Bool 384), closedPath im = false →
    let o := cellsOut im inp ffs
    ∀ i : Fin 384, o[i] = if (im.cells[i]).getLsbD 16 = true then ffs[i] else cellLutOut im inp (tracksOf im o) o i

/-- R281 to R283: tap events and post words of a tree cycle. A direct region's bit goes to each inlet that names the
region, another's waits in a FIFO of eight or is lost; a post takes MNPADDR on by one and reaches its word where the
owner's windows let it. R284 to R287, Table MN-6: a change of clock, and a run-time reconfiguration from the instant
the engine takes it: parked outputs, the image that the slot's units in EB1 spell with every flip-flop at INIT, and a unit in error
that leaves the region out of service without halting its owner. The model's own choice here is that a tap and a post act once in the
cycle of the edge before (log 113), that a direct region has no FIFO (log 114), and the bytes of a unit (log 145). -/
def Obligations.FabricCommands : Prop :=
  (∀ (r : Region) (s : State), (s.region r).state = .running →
     let x := s.region r
     (∀ b, x.tapTaken = false → x.outputOf 2 = some true → x.outputOf 1 = some b →
       (x.direct = true → ∃ t, exec (.tapEvent r) s = .next t ∧ (t.region r).taps = x.taps + 1 ∧ (t.region r).tapTaken = true
         ∧ ((∀ j, (s.strip j).inlet.filled < 1024) → s.modes.parked = false → ∀ k : Strip,
             let i := (s.strip k).inlet
             if s.mea.tapValid.getLsbD k.val = true ∧ (s.mea.tapRegion[k]).toNat = r.val ∧ i.en = true ∧ i.src = 0x10
             then (t.strip k).inlet.filled = i.filled + 1
               ∧ (t.strip k).inlet.fill = (if b = true then i.fill ||| (1#1024 <<< i.filled) else i.fill)
             else t.strip k = s.strip k))
       ∧ (x.direct = false → x.tapFifo.length < 8 → ∃ t, exec (.tapEvent r) s = .next t ∧ t.braid = s.braid
         ∧ (t.region r).tapFifo = x.tapFifo ++ [.whole b] ∧ (t.region r).taps = x.taps + 1 ∧ (t.region r).tlost = x.tlost)
       ∧ (x.direct = false → 8 ≤ x.tapFifo.length → ∃ t, exec (.tapEvent r) s = .next t ∧ t.braid = s.braid
         ∧ (t.region r).tapFifo = x.tapFifo ∧ (t.region r).taps = x.taps ∧ (t.region r).tlost = satInc x.tlost))
     ∧ (x.postTaken = false → x.outputOf 0x30 = some true → x.postReady = true →
       (x.direct = false → ∃ t, exec (.post r) s = .next t ∧ (t.region r).paddr = x.paddr + 1
         ∧ (t.region r).fifo = x.fifo ++ [.whole (x.paddr, x.postWord)] ∧ t.pool = s.pool ∧ t.eddy = s.eddy)
       ∧ (∀ c tag, x.direct = true → x.fifo = [] → x.owner = some c → s.postHeld r c x.paddr = false → s.nextTag (postNi r) = some tag →
         (∀ p, s.translate c x.paddr true = some p → p.there → s.memOk = true → s.unharmed → s.poisoned p = false →
             let y := ownPacket (postNi r) cmdWrw c (s.defaultLabel c) tag p 0 (.post r x.paddr) [x.postWord.zeroExtend 72]
               { damage := [], back := [], ecc := [] }
             Travels s y → Served s y →
             ∃ t, exec (.post r) s = .next t ∧ (t.region r).paddr = x.paddr + 1 ∧ (t.region r).fifo = []
               ∧ (t.region r).posted = x.posted + 1 ∧ t.peek p = x.postWord.zeroExtend 36 ∧ ∀ q : Phys, q ≠ p → t.peek q = s.peek q)
         ∧ (s.translate c x.paddr true = none → ∃ t, exec (.post r) s = .next t ∧ (t.region r).paddr = x.paddr + 1
             ∧ (t.region r).fifo = [] ∧ (t.region r).pdrop = satInc x.pdrop ∧ t.pool = s.pool ∧ t.eddy = s.eddy)))
     ∧ (∀ i : Fin 32, (x.postWord).getLsbD i.val = true ↔ x.outputOf (BitVec.ofNat 8 (0x10 + i.val)) = some true))
  ∧ (∀ s : State,
       (∀ r, (s.region r).sw = true → ∃ t, exec (.clockSwitchComplete r) s = .next t ∧ t = { s with mea := t.mea }
         ∧ t.region r = { s.region r with
             source := (s.region r).newSource, divM1 := (s.region r).newDiv, sw := false,
             edges := (s.now - s.mea.frameAt) * 768 / 15625 / ((s.region r).newDiv.toNat + 1) }
         ∧ ∀ u, u ≠ r → t.region u = s.region u)
       ∧ (∀ r rest slot, s.power.phase = .run → s.mea.engine = none → s.mea.queue = r :: rest → (s.region r).reqSlot = some slot →
         let x := s.region r
         ∃ t, exec .reconfigurationStart s = .next t ∧ t = { s with mea := t.mea } ∧ t.mea.engine = some (r, slot) ∧ t.mea.queue = rest
           ∧ (let y := t.region r
              y.state = .parked ∧ y.reqSlot = none ∧ y.tapTaken = true ∧ y.postTaken = true ∧ y.fifo = x.fifo ∧ y.tapFifo = x.tapFifo ∧ y.ffs = x.ffs ∧ y.paddr = x.paddr
              ∧ ∀ k : Fin 40, y.outs[k]
                  = if x.image.outputs[k] = 2 ∨ x.image.outputs[k] = 0x30 then false
                    else if x.image.parking[k] = 1 then true else if x.image.parking[k] = 2 then x.outs[k] else false)
           ∧ ∀ u, u ≠ r → t.region u = s.region u)
       ∧ (s.power.phase ≠ .run → exec .reconfigurationStart s = .next s ∧ ∀ ecc, exec (.reconfigurationComplete ecc) s = .next s)
       ∧ (∀ r slot, s.power.phase = .run → s.mea.engine = some (r, slot) → (s.bank 17).portA.last = [] →
         let x := s.region r
         let us := unitsFrom (slotAt r slot) 128
         let im := imageOf (unitsBytes (us.map s.peekUnit))
         ((∀ u ∈ us, s.poisoned u = false) → ∃ t, exec (.reconfigurationComplete []) s = .next t ∧ t.mea.engine = none
           ∧ t.pool = s.pool ∧ t.eddy = s.eddy ∧ t.poison = s.poison ∧ t.ctxs = s.ctxs ∧ t.faults = s.faults
           ∧ (let y := t.region r
              y.state = .running ∧ y.fresh = true ∧ y.slot = slot ∧ y.full = false ∧ y.rcnt = satInc x.rcnt ∧ y.outs = x.outs
              ∧ y.source = x.source ∧ y.divM1 = x.divM1 ∧ y.paddr = x.paddr ∧ y.pend = x.pend
              ∧ y.image.cells = im.cells ∧ y.image.inputs = im.inputs ∧ y.image.outputs = im.outputs ∧ y.image.parking = im.parking
              ∧ ∀ i : Fin 384, y.ffs[i] = (im.cells[i]).getLsbD 17)
           ∧ ∀ u, u ≠ r → t.region u = s.region u)
         ∧ (s.faults.stack.length < 4 → (∃ u ∈ us, s.poisoned u = true) → ∃ t, exec (.reconfigurationComplete []) s = .next t
           ∧ t.mea.engine = none ∧ t.pool = s.pool ∧ t.eddy = s.eddy
           ∧ (t.region r).state = .error ∧ (t.region r).rfail = satInc x.rfail ∧ (t.region r).outs = x.outs ∧ (t.region r).ffs = x.ffs
           ∧ (∀ u, u ≠ r → t.region u = s.region u)
           ∧ (∀ c, (t.ctx c).state = .halted ↔ (s.ctx c).state = .halted) ∧ t.modes.req = s.modes.req)))

/-! ### Network, memories and the Weir -/

/-- R229, R232, R235, R239, R255: a read that its NI lets out, and that its bank performs as it arrives, leaves its tag with the units
that stand in memory, and changes no memory; RDI marks the block as fetched by its NI. R232, R238, R248: a write whose
packet arrives whole puts its units, or WRW its word, in memory and leaves every other word; WR and WRW are
acknowledged where no NI has fetched their block, and WRP takes no tag. A poisoned one writes nothing. R257: a bank offline answers
ERR 03h. The model's own choice here is that a request is served when it arrives and its response waits at the tag (log 83). -/
def Obligations.MemoryPackets : Prop :=
  (∀ (q : Req) (cmd : Instr) (code : BitVec 5) (s : State), (cmd = .rd q ∧ code = cmdRd) ∨ (cmd = .rdi q ∧ code = cmdRdi) →
     let p := requestPacket code q [] false false
     Requested s p q.units →
     (Served s p → (∀ u ∈ unitsFrom q.phys q.units, s.poisoned u = false) → ∃ t, exec cmd s = .next t
       ∧ (let us := (unitsFrom q.phys q.units).map (fun u => (s.peekUnit u, false))
          t.findTag q.src q.tag
            = some { ni := q.src, tag := q.tag, req := q, write := false, own := false, retired := false, at_ := s.now,
                     resp := some (.rdata us), respAt := s.net.answers, back := [] })
       ∧ t.pool = s.pool ∧ t.eddy = s.eddy ∧ t.poison = s.poison
       ∧ (code = cmdRdi → (q.phys.blockKey, q.src) ∈ t.net.snoops))
     ∧ (q.phys.ni = q.dest → s.zeroShare q.qc q.phys = false → (s.bank q.phys.bank).state = .offline →
         ∃ t x, exec cmd s = .next t ∧ t.findTag q.src q.tag = some x ∧ x.resp = some (.err 3) ∧ t.pool = s.pool ∧ t.eddy = s.eddy))
  ∧ (∀ (q : Req) (us : List (BitVec 72)) (w : Word) (s : State), s.memOk = true →
       let clear := ∀ n, (n = q.units ∨ n = 1) → (∀ e ∈ s.net.snoops, e.1 ≠ (q.last n).blockKey ∧ e.1 ≠ q.phys.blockKey)
           ∧ (∀ e ∈ s.net.snooping, e.1 ≠ (q.last n).blockKey ∧ e.1 ≠ q.phys.blockKey)
       let whole := us.length = q.units ∧ q.phys.word % 2 = 0
       let stored (t : State) := (∀ i, i < q.units → t.peekUnit { q.phys with word := q.phys.word + 2 * i } = us.getD i 0)
           ∧ (∀ p : Phys, p.eddy ≠ q.phys.eddy ∨ p.word < q.phys.word ∨ q.phys.word + 2 * q.units ≤ p.word → t.peek p = s.peek p)
           ∧ ∀ u ∈ unitsFrom q.phys q.units, t.poisoned u = false
       let acked (t : State) := ∃ x, t.findTag q.src q.tag = some x ∧ x.resp = some .ack ∧ x.retired = false
       let wr (bad posted : Bool) := requestPacket (if posted = true then cmdWrp else cmdWr) q us bad posted
       let wrw (bad : Bool) := requestPacket cmdWrw q [w.zeroExtend 72] bad false
       (whole → Requested s (wr false false) q.units → Served s (wr false false) →
         ∃ t, exec (.wr q us false) s = .next t ∧ stored t ∧ (clear → acked t))
       ∧ (whole → Requested s (wr false true) q.units → Served s (wr false true) →
         ∃ t, exec (.wrp q us false) s = .next t ∧ stored t ∧ t.net.tags = s.net.tags)
       ∧ (Requested s (wrw false) 1 → Served s (wrw false) → s.poisoned q.phys = false → ∃ t, exec (.wrw q w false) s = .next t
           ∧ t.peek q.phys = w ∧ (∀ p : Phys, p ≠ q.phys → t.peek p = s.peek p) ∧ (clear → acked t))
       ∧ (Requested s (wr true false) q.units → Placed s q → us ≠ [] →
           ∃ t x, exec (.wr q us true) s = .next t ∧ t.pool = s.pool ∧ t.eddy = s.eddy
             ∧ t.findTag q.src q.tag = some x ∧ x.resp = some (.err 1))
       ∧ (Requested s (wr true true) q.units → Placed s q → us ≠ [] →
           ∃ t, exec (.wrp q us true) s = .next t ∧ t.pool = s.pool ∧ t.eddy = s.eddy ∧ t.net.tags = s.net.tags)
       ∧ (Requested s (wrw true) 1 → Placed s q → ∃ t x, exec (.wrw q w true) s = .next t ∧ t.pool = s.pool ∧ t.eddy = s.eddy
           ∧ t.findTag q.src q.tag = some x ∧ x.resp = some (.err 1)))

/-- R229, R232, R369: the register transactions at PD, and a bundle stream's units on their way. The model's own
choice here is ERR 02h for a REGWR that is refused (log 84), and that BSTR moves and counts units alone (log 85). -/
def Obligations.RegisterPackets : Prop :=
  ∀ (q : Req) (a : RegAddr) (v : Word) (us : List (BitVec 72)) (s : State),
    (q.dest = 0x17 → decodeIndex (q.addr.extractLsb' 0 13) = some a →
      let read := requestPacket cmdRegrd q [] false false
      let write := requestPacket cmdRegwr q [v.zeroExtend 72] false false
      let u := (s.inject write).2
      (Requested s read 1 → ∃ t x, exec (.regrd q) s = .next t ∧ t.findTag q.src q.tag = some x
        ∧ x.resp = some (.rdata [(((s.inject read).2.regRead q.ten a).zeroExtend 72, false)])
        ∧ t.pool = s.pool ∧ t.eddy = s.eddy)
      ∧ (Requested s write 1 →
        (u.regWrite q.ten a v = .refused →
          ∃ t x, exec (.regwr q v false) s = .next t ∧ t.findTag q.src q.tag = some x ∧ x.resp = some (.err 2)
            ∧ t.ctxs = s.ctxs ∧ t.braid = s.braid)
        ∧ (∀ z, u.regWrite q.ten a v = .done z → exec (.regwr q v false) s = .next (z.answer q.src q.tag .ack)))
      ∧ (Requested s (requestPacket cmdRegwr q [v.zeroExtend 72] true false) 1 →
          ∃ t x, exec (.regwr q v true) s = .next t ∧ t.findTag q.src q.tag = some x ∧ x.resp = some (.err 1)
            ∧ t.ctxs = s.ctxs ∧ t.braid = s.braid))
    ∧ (Requested s (requestPacket cmdBstr q us false true) 1 → ∃ t, exec (.bstr q us) s = .next t ∧ t = { s with net := t.net }
      ∧ t.net.tags = s.net.tags ∧ t.net.waits = s.net.waits
      ∧ ∀ r : RouterId, (t.net.routers[r]).units
          = (s.net.routers[r]).units + BitVec.ofNat 36 (((s.pathTo q.src q.dest).count r) * (1 + us.length)))

/-- R236 to R238, R241: a response that is the next to leave its destination and comes undamaged frees its tag and is delivered; ERR 01h
and 03h, and a poisoned word that is wanted, raise NIECC in the load that waits; one for a retired tag is discarded and counted as late.
R241 to R243, Table TR-7: a tag's timeout, its release, and the end of a flush once no producer has a unit left to write. The model's own choice here is the record
of the response last delivered (log 83), an arrival in the cycle of the timeout (log 120), and that a retired tag
stays so when its response comes (log 123). -/
def Obligations.ResponsesAndTimeouts : Prop :=
  (∀ (n : NiId) (tag : BitVec 6) (x : Tag) (r : Response) (s : State), s.findTag n tag = some x → x.resp = some r →
     s.mayDeliver x = true → s.reaches x.req.dest n →
     let cmd := match r with
       | .rdata _ => Instr.rdata n tag []
       | .ack => .ack n tag []
       | .err _ => .err n tag []
     let bad := match r with
       | .rdata us => (us.getD x.req.wanted (0, false)).2 = true
       | .ack => False
       | .err c => c = 1 ∨ c = 3
     (x.retired = false → ∃ t, exec cmd s = .next t ∧ t.findTag n tag = none ∧ t.net.arrived[n] = some (tag, r)
       ∧ t.pool = s.pool ∧ t.eddy = s.eddy ∧ t.braid = s.braid
       ∧ (¬ bad → t.ctxs = s.ctxs)
       ∧ (bad → ∀ c a, x.req.purpose = .load c a → (s.ctx c).live = true → s.power.phase = .run →
           (t.ctx c).sync = (s.ctx c).sync ++ [syncCause 0x0a (a.zeroExtend 36)]))
     ∧ (x.retired = true → ∃ t y, exec cmd s = .next t ∧ t.findTag n tag = some y ∧ y.retired = true ∧ y.resp = none
       ∧ t.net.counts[n].late = satInc s.net.counts[n].late ∧ t.ctxs = s.ctxs ∧ t.net.arrived = s.net.arrived))
  ∧ (∀ (n : NiId) (s : State),
       (∀ tag x, s.findTag n tag = some x →
         (x.retired = false → s.passed x.at_ (s.timeoutOf x) = true →
           (x.resp.isSome = true → exec (.niTimeout n tag true) s = .next (s.modNi n (fun c => { c with near := satInc c.near })))
           ∧ ∃ t y, exec (.niTimeout n tag false) s = .next t ∧ t.findTag n tag = some y ∧ y.retired = true ∧ y.at_ = s.now
             ∧ t.net.counts[n].tmo = satInc s.net.counts[n].tmo
             ∧ (∀ k, x.req.purpose = .outlet k → t.ctxs = s.ctxs ∧ t.faults = s.faults)
             ∧ (x.req.purpose = .system → t.ctxs = s.ctxs ∧ t.faults = (s.countFault 0x70 n.val).faults)
             ∧ (∀ c a, x.req.purpose = .load c a → (s.ctx c).live = true → s.power.phase = .run →
                 (t.ctx c).sync = (s.ctx c).sync ++ [syncCause 0x0b (a.zeroExtend 36)])
             ∧ (∀ r a, x.req.purpose = .post r a → (t.region r).pdrop = satInc (s.region r).pdrop))
         ∧ (x.retired = true → s.passed x.at_ (s.timeoutOf x) = true → ∃ t, exec (.tagRelease n tag) s = .next t
             ∧ t.findTag n tag = none ∧ t = { s with net := t.net }))
       ∧ (s.net.flushing[n] ≠ 0 → s.net.draining[n] ≠ 0 → exec (.flushComplete n) s = .next s)
       ∧ (s.net.flushing[n] ≠ 0 → s.net.draining[n] = 0 → ∃ t, exec (.flushComplete n) s = .next t ∧ t = { s with net := t.net } ∧ t.net.flushing[n] = 0
         ∧ t.net.counts[n].flush = satInc s.net.counts[n].flush
         ∧ t.net.tags = s.net.tags.map (fun x =>
             if x.ni = n ∧ (s.net.flushing[n]).getLsbD x.req.ten.val = true ∧ x.req.qc ≠ 0
             then { x with retired := true, at_ := s.now, resp := none } else x)))

/-- R239: an SNPINV drops the unit's cached lines of the block and a fill of it that is on its way will not be kept, and after the last
SNPACK the writes that waited on the block alone are acknowledged, the node's own at once. The model's own choice here is that SNPACK
is accepted after the SNPINV alone (log 122). -/
def Obligations.SnoopsReleaseWrites : Prop :=
  ∀ (n : NiId) (block : BitVec 11) (s : State),
    ((block.toNat, n, false) ∈ s.net.snooping → ∃ t, exec (.snpinv n block) s = .next t ∧ (block.toNat, n, true) ∈ t.net.snooping
      ∧ t.net.heldAck = s.net.heldAck
      ∧ ∀ u : UnitId, if u.val = n.val then (t.hunit u).icache = (s.hunit u).icache.filter (fun l => decide (l / 256 ≠ block.toNat))
            ∧ (∀ f, (t.hunit u).ifill = some f → f.block = block.toNat → f.keep = false)
          else t.hunit u = s.hunit u)
    ∧ ((block.toNat, n, true) ∈ s.net.snooping → ∃ t, exec (.snpack n block) s = .next t
      ∧ (∀ e, e ∈ t.net.snooping ↔ e ∈ s.net.snooping ∧ e ≠ (block.toNat, n, true))
      ∧ ((∃ e ∈ t.net.snooping, e.1 = block.toNat) → t.net.heldAck = s.net.heldAck ∧ t.net.tags = s.net.tags)
      ∧ ((∀ e ∈ t.net.snooping, e.1 ≠ block.toNat) → (∀ e, e ∈ t.net.heldAck ↔ e ∈ s.net.heldAck ∧ e.1 ≠ block.toNat)
          ∧ ∀ m tg x, (block.toNat, m, AckFor.tag tg) ∈ s.net.heldAck → (∀ e ∈ s.net.heldAck, e.2 = (m, .tag tg) → e.1 = block.toNat) →
            s.findTag m tg = some x →
            (x.own = false → ∃ y, t.findTag m tg = some y ∧ y.resp = some .ack ∧ y.retired = x.retired)
            ∧ (x.own = true → x.retired = false → x.back = [] → s.reaches x.req.dest m → t.findTag m tg = none)))

/-- R255 to R257, R274, Tables PL-1 and PL-2: a scrub read in an idle cycle moves the bank's position on through its units; a single-bit
error is corrected and counted, a double one recorded, and a forced read costs a cycle of its group. R263, R264, R271, R273: the end of
a window, and the declaration of a shortfall once a class in budget has had its share full for 4096 cycles. The model's own choice here
is that a unit written back counts as one write (log 118). -/
def Obligations.ScrubbingAndWeirWindows : Prop :=
  (∀ (k : BankId) (s : State), let b := s.bank k
     let size := if k.val < 16 then 65536 else 8192
     let due (ns : Nat) := s.dieOn = true ∧ b.state = .active ∧ b.scrubAt + ns ≤ s.now
     let moved (t : State) := ((t.bank k).scrub.toNat = if b.scrub.toNat + 1 < size then b.scrub.toNat + 1 else 0)
       ∧ (t.bank k).passes = (if b.scrub.toNat + 1 < size then b.passes else b.passes + 1)
       ∧ t.pool = s.pool ∧ t.eddy = s.eddy
     b.scrub.toNat < size → s.poisoned (bankPlace k b.scrub.toNat) = false → (∀ x ∈ b.portB.last, x.unit ≠ b.scrub.toNat) →
     (due 0 → b.portA.free ≤ s.cycle →
       (∃ t, exec (.scrubRead k .clean) s = .next t ∧ moved t ∧ t.poison = s.poison ∧ (t.bank k).cor = b.cor
         ∧ (t.bank k).rdu = b.rdu + 1)
       ∧ (∃ t, exec (.scrubRead k .single) s = .next t ∧ moved t ∧ t.poison = s.poison ∧ (t.bank k).cor = satInc b.cor
         ∧ (t.bank k).wru = b.wru + 1 ∧ t.faults = (s.countFault 0x41 k.val).faults)
       ∧ (∃ t, exec (.scrubRead k .double) s = .next t ∧ moved t ∧ t.poisoned (bankPlace k b.scrub.toNat) = true
         ∧ (t.bank k).unc = satInc b.unc ∧ (t.bank k).uadr = b.scrub ∧ (t.bank k).uvalid = true ∧ (t.bank k).uscrub = true
         ∧ (k.val < 16 → 15 ≤ b.unc.toNat → s.faults.stack.length < 4 → (t.bank k).state = .offline)
         ∧ (16 ≤ k.val ∨ b.unc.toNat < 15 → (t.bank k).state = .active)))
     ∧ (due 0 → s.cycle < b.portA.free → exec (.scrubRead k .clean) s = .next s)
     ∧ (due 2560 → ∃ t, exec (.forcedScrub k .clean) s = .next t ∧ moved t ∧ (t.bank k).frc = satInc b.frc
         ∧ ∀ g : Group, t.weir.lostCur[g] = s.weir.lostCur[g] + if k.val < 16 ∧ k.val / 4 = g.val then 1 else 0))
  ∧ (∀ s : State, s.power.phase = .run →
       let full (g : Group) : Prop := ∃ c, s.weir.fullAt[g] = some c ∧ c + 4096 ≤ s.cycle
       let shareFull (q : BitVec 4) (g : Group) : Prop := q ≠ 0 ∧ (s.cls q).recd.owner.isSome = true
         ∧ ((s.cls q).bytes[g]).toNat < (s.cls q).recd.budget[g] ∧ 0 < (s.cls q).recd.share[g]
         ∧ (s.cls q).recd.share[g] ≤ (s.net.waits.filter (fun p =>
             decide (p.stage = .queued) && decide (p.req.qc = q) && decide (p.group = some g))).length
       (s.weir.winAt + 163840 ≤ s.now → ∃ t, exec .weirWindow s = .next t ∧ t.pool = s.pool ∧ t.eddy = s.eddy
         ∧ t.weir.win = s.weir.win + 1 ∧ t.weir.winAt = s.weir.winAt + 163840 ∧ t.weir.sfPrev = s.weir.sf
         ∧ t.weir.labels = s.weir.labels ∧ (∀ g : Group, t.weir.sf.getLsbD g.val = true ↔ full g)
         ∧ ((∀ g, ¬ full g) → t = { s with weir := t.weir })
         ∧ ∀ (q : BitVec 4) (g : Group), (t.cls q).bytes[g] = satAdd 0 (s.cls q).next[g] ∧ (t.cls q).recd = (s.cls q).recd
           ∧ (t.cls q).lf = (s.cls q).lf
           ∧ (t.cls q).overs[g] = (if (s.cls q).recd.owner.isSome = true ∧ (s.cls q).recd.budget[g] ≤ ((s.cls q).bytes[g]).toNat
               then satInc (s.cls q).overs[g] else (s.cls q).overs[g]))
       ∧ (∀ (g : Group) (cls : BitVec 4), s.weir.sf.getLsbD g.val = false → full g → shareFull cls g →
         ∃ t, exec (.shortfallDeclaration g cls) s = .next t ∧ t.weir.sf = s.weir.sf ||| (1#4 <<< g.val)
           ∧ t.weir.grpSf[g] = satInc s.weir.grpSf[g] ∧ t.weir.win = s.weir.win
           ∧ (∀ q : BitVec 4, (t.cls q).sfServed[g] = 0)
           ∧ (∀ (q : BitVec 4) c, (∃ p ∈ s.net.waits, p.req.qc = q ∧ p.group = some g) → (s.cls q).recd.owner = some c →
               (t.weir.told[g]).getLsbD c.val = true)
           ∧ t.pool = s.pool ∧ t.eddy = s.eddy)
       ∧ (∀ (g : Group) (cls : BitVec 4), s.weir.sf.getLsbD g.val = true ∨ ¬ full g ∨ ¬ shareFull cls g →
           exec (.shortfallDeclaration g cls) s = .next s)
       ∧ ∀ g : Group, ((s.watchShares).weir.fullAt[g]).isSome = true ↔ ∃ q : BitVec 4, shareFull q g)

/-- R265, R269: a request that finds its class at the cap waits at its NI with no tag reserved; one whose class has no share waits in the
network and counts. R246, R247: one whose bank cannot serve it as it arrives waits, in the group's queue where its class has an entry
left and nothing stands before it. R247, R267, R268, R272: the packet that a bank takes next, under the priority law and under
shortfall. The model's own choice here is that a packet waits at its NI or at its destination (log 116), and the entries that QC 0 and
Eddy have (log 150). -/
def Obligations.QueuesAndPriority : Prop :=
  (∀ (q : Req) (cmd : Instr) (code : BitVec 5) (s : State), (cmd = .rd q ∧ code = cmdRd) ∨ (cmd = .rdi q ∧ code = cmdRdi) →
     let p := requestPacket code q [] false false
     let waits (t : State) (x : Stage) := t.net.waits = s.net.waits ++ [{ p with stage := x, since := s.cycle }]
       ∧ t.pool = s.pool ∧ t.eddy = s.eddy
     (∀ g, s.ready q false = true → s.mayRequest code q = true → s.niAllows q false q.units = true → p.group = some g → q.qc ≠ 0 →
       (s.cls q.qc).recd.cap ≤ (s.cls q.qc).out.toNat →
       ∃ t, exec cmd s = .next t ∧ waits t .atNi ∧ t.net.tags = s.net.tags ∧ t.net.routers = s.net.routers)
     ∧ (Requested s p q.units → q.phys.ni = q.dest → s.zeroShare q.qc q.phys = true →
       ∃ t, exec cmd s = .next t ∧ waits t .mesh ∧ (t.cls q.qc).zsh = satInc (s.cls q.qc).zsh ∧ (t.findTag q.src q.tag).isSome = true)
     ∧ (Requested s p q.units → Placed s q → s.servesNow q code = false →
       ∃ t, exec cmd s = .next t ∧ waits t (if s.entryOpen q.qc q.phys = true ∧ s.wayClear q code = true then .queued else .mesh)
         ∧ (t.findTag q.src q.tag).isSome = true
         ∧ (∀ g, p.group = some g → q.qc ≠ 0 → (t.cls q.qc).out = satInc (s.cls q.qc).out)))
  ∧ (∀ (q : BitVec 4) (s : State), q ≠ 0 →
       let c := s.cls q
       let eff := c.recd.b + Nat.min 7 (c.lf.toNat / (8 * c.recd.target))
       (c.recd.target ≠ 0 → s.rank q none = eff
         ∧ ∀ g : Group, s.rank q (some g) = if c.recd.budget[g] ≤ (c.bytes[g]).toNat then Nat.min 3 eff else eff)
       ∧ (c.recd.b ≤ 8 → ∀ g, s.rank q g < s.rank 0 g))
  ∧ (∀ (l : List Packet) (g : Option Group) (p : Packet) (s : State), s.pick l g = some p →
       let short := ∃ k, g = some k ∧ s.weir.sf.getLsbD k.val = true ∧ (∀ x ∈ l, x.req.qc ≠ 0)
         ∧ ∃ x ∈ l, (s.cls x.req.qc).overBudget k = false
       let first (x : Packet) := p.since < x.since ∨ (p.since = x.since ∧ p.req.src.val ≤ x.req.src.val)
       p ∈ l
       ∧ (¬ short → ∀ x ∈ l, s.rank x.req.qc x.group ≤ s.rank p.req.qc p.group
           ∧ (s.rank x.req.qc x.group = s.rank p.req.qc p.group → first x))
       ∧ (short → ∀ k, g = some k → (s.cls p.req.qc).overBudget k = false
           ∧ ∀ x ∈ l, (s.cls x.req.qc).overBudget k = false →
             let mine := (s.cls p.req.qc).sfServed[k] * (s.cls x.req.qc).recd.budget[k]
             let other := (s.cls x.req.qc).sfServed[k] * (s.cls p.req.qc).recd.budget[k]
             mine ≤ other ∧ (mine = other → p.req.qc ≤ x.req.qc ∧ (p.req.qc = x.req.qc → first x))))

/-! ### Ring link and ring time -/

/-- R290, R292, R300, R304: a port comes Up at the amplitude resolved and relays once the node may; a link lost drops
what stood at the port and trains again, and the time port moves to the other port if that is Up. Neither ends lock.
The model's own choice here is when the restriction to 2.4 Vpp ends (log 101). -/
def Obligations.PortsAndLinks : Prop :=
  ∀ (p : Port) (s : State),
    let x := s.port p
    let q := otherPort p
    (∀ amp24 master, s.power.powered = true → x.state = .training → x.trainAt ≤ s.now → (x.only24 = true → amp24 = true) →
      ∃ t, exec (.portUp p amp24 master) s = .next t ∧ (t.port p).state = .up ∧ (t.port p).amp24 = amp24 ∧ (t.port p).master = master
        ∧ (t.port p).upc = satInc x.upc ∧ (t.port p).last = s.ringMs
        ∧ (t.port p).relaying = (x.relaying || decide (s.ring.relayAt ≤ s.now))
        ∧ (t.port q).state = (s.port q).state ∧ (t.port q).relaying = (s.port q).relaying ∧ t.time = s.time ∧ t.ptp = s.ptp)
    ∧ (s.power.powered = true → x.state = .up → s.ring.relayAt ≤ s.now →
      exec (.relayStart p) s = .next (s.modPort p (fun y => { y with relaying := true })))
    ∧ (x.state = .up → ∃ t, exec (.linkLoss p) s = .next t ∧ (t.port p).state = .training ∧ (t.port p).trainAt = s.now
        ∧ (t.port p).downc = satInc x.downc ∧ (t.port p).last = s.ringMs ∧ (t.port p).relaying = x.relaying
        ∧ (t.port p).qEvent = [] ∧ (t.port p).qRelay = [] ∧ (t.port p).qOwn = []
        ∧ (t.port q).state = (s.port q).state ∧ (t.port q).qRelay = (s.port q).qRelay ∧ t.time = s.time ∧ t.ptp.state = s.ptp.state
        ∧ (s.ptp.timePort = some p → (s.port q).state = .up →
            t.ptp.timePort = some q ∧ t.ptp.delays = [] ∧ t.ptp.delayOk = false ∧ t.ptp.burst = 4)
        ∧ (s.ptp.timePort ≠ some p ∨ (s.port q).state ≠ .up → t.ptp = s.ptp))

/-- R292, R294, R295, R299, Table LN-2: the disposition of a frame that arrives intact, the PTP frames apart. Every
arrival counts; a frame passes on unchanged where the other port relays and its queue has room. The model's own choice
here is that a frame whose FCS fails marks no pair as known (log 95), and that LPSUPV counts consumed copies alone
(log 96). -/
def Obligations.FramesByTheirRows : Prop :=
  ∀ (p : Port) (f : FrameIn) (s : State), s.power.powered = true → (s.port p).state = .up →
    let q := otherPort p
    let g := f.frame
    let x := s.port p
    let intact := f.tagged = true ∧ f.lsduOk = true ∧ f.fcsOk = true ∧ g.invalid = false
    let onward (t : State) := (s.port q).state = .up → (s.port q).relaying = true → s.relayRoom q g →
      (t.port q).qRelay = (s.port q).qRelay ++ [g]
    let marked (t : State) := (g.src, g.seq, s.now) ∈ t.ring.known
    ∃ t, exec (.hsrFrame p f) s = .next t ∧ (t.port p).rxf = x.rxf + 1
      ∧ (x.relaying = false → t.port q = s.port q ∧ (t.port p).early = satInc x.early ∧ t.ring.known = s.ring.known)
      ∧ (x.relaying = true → f.tagged = false → t.port q = s.port q ∧ (t.port p).untag = satInc x.untag)
      ∧ (x.relaying = true → f.tagged = true → f.lsduOk = false → t.port q = s.port q ∧ (t.port p).rxe = satInc x.rxe)
      ∧ (x.relaying = true → f.tagged = true → f.lsduOk = true → f.fcsOk = false →
          (t.port p).rxe = satInc x.rxe ∧ (t.port p).supv = x.supv ∧ t.ring.nodes = s.ring.nodes)
      ∧ (x.relaying = true → intact →
          (g.src = s.address → s.sentPair g = true → t.port q = s.port q ∧ (t.port p).own = satInc x.own ∧ t.ring.known = s.ring.known)
          ∧ (g.src ≠ s.address → g.etherType ≠ etPtp →
              (∀ a, s.knownAt g = some a → a < s.now →
                t.port q = s.port q ∧ (t.port p).dup = satInc x.dup ∧ t.ring.known = s.ring.known)
              ∧ (s.knownAt g = none → marked t
                ∧ (g.dst = s.address → t.port q = s.port q)
                ∧ (g.dst ≠ s.address → onward t)
                ∧ (g.dst = supervisionGroup → g.etherType = etSupervision → s.consumes = true →
                    (t.port p).supv = satInc x.supv)
                ∧ (g.dst = s.address → s.consumes = false → (t.port p).unread = satInc x.unread)
                ∧ (g.dst ≠ s.address → g.group = false → (t.port p).unread = x.unread ∧ (t.port p).supv = x.supv))))

/-- R298, R303: PTP frames on their way. A Delay_Req leaves with its residence in the correctionField, a Follow_Up
with that of its Sync, or unchanged and counted as an orphan; a supervision frame refreshes the node table. R294,
R297, R298: what is forgotten and when, own frames that have waited 4 ms stand ahead of relayed ones, and the node's
own supervision frames. The model's own choice here is the layouts of the cited standards (log 74), where the
residence comes from (log 73), and the node table when it is full (log 71). -/
def Obligations.RelayedFramesAndTables : Prop :=
  (∀ (p : Port) (f : FrameIn) (s : State), s.power.powered = true → (s.port p).state = .up → (s.port p).relaying = true →
     f.tagged = true → f.lsduOk = true → f.fcsOk = true → f.frame.invalid = false → f.frame.src ≠ s.address →
     let q := otherPort p
     let g := f.frame
     let corrected (h : Frame) (ns : Nat) := h = { g with payload := h.payload } ∧ h.payload.take 8 = g.payload.take 8
       ∧ h.payload.drop 16 = g.payload.drop 16 ∧ fieldBE h.payload 8 8 = (fieldBE g.payload 8 8 + ns * 65536) % 2 ^ 64
     ((s.port q).state = .up → (s.port q).relaying = true →
       (∀ ns, g.ptpType = some 1 → ∃ t h, exec (.delayReq p f ns) s = .next t ∧ corrected h ns
         ∧ (t.port q).qEvent = (s.port q).qEvent ++ [h] ∧ (t.port q).qRelay = (s.port q).qRelay)
       ∧ (g.ptpType = some 8 → s.relayRoom q g → ∃ t h, exec (.followUp p f) s = .next t
         ∧ (t.port q).qRelay = (s.port q).qRelay ++ [h] ∧ (t.port q).qEvent = (s.port q).qEvent
         ∧ (∀ ns, s.syncResidence p g = some ns → corrected h ns ∧ t.ptp = s.ptp)
         ∧ (s.syncResidence p g = none → h = g ∧ t.ptp.orph = satInc s.ptp.orph)))
     ∧ (g.dst = supervisionGroup → g.etherType = etSupervision → s.knownAt g = none → s.consumes = true →
         s.ring.nodes.length < 80 →
         ∃ t, exec (.supervisionFrame p f) s = .next t ∧ (t.port p).supv = satInc (s.port p).supv
           ∧ (g.src, p, s.now) ∈ t.ring.nodes ∧ (∀ e, e ∈ t.ring.nodes → e.1 = g.src → e = (g.src, p, s.now))
           ∧ (∀ e, e.1 ≠ g.src → (e ∈ t.ring.nodes ↔ e ∈ s.ring.nodes))))
  ∧ (∀ (p : Port) (s : State),
       (∃ t, exec .duplicateEntryForget s = .next t ∧ t = { s with ring := t.ring } ∧ t.ring.portA = s.ring.portA
         ∧ t.ring.portB = s.ring.portB ∧ t.ring.nodes = s.ring.nodes
         ∧ ∀ e, e ∈ t.ring.known ↔ e ∈ s.ring.known ∧ s.now < e.2.2 + 400 * ms)
       ∧ (∃ t, exec .nodeTableForget s = .next t ∧ t = { s with ring := t.ring } ∧ t.ring.portA = s.ring.portA
         ∧ t.ring.portB = s.ring.portB ∧ t.ring.known = s.ring.known
         ∧ ∀ e, e ∈ t.ring.nodes ↔ e ∈ s.ring.nodes ∧ s.now < e.2.2 + 60 * sec)
       ∧ (∀ ahead rest, (s.port p).qRelay = ahead ++ rest → (∀ g ∈ ahead, s.isOwn g = true) → (∀ g, rest.head? = some g → s.isOwn g = false) →
         ∃ t late, exec (.ownFramePromotion p) s = .next t ∧ (t.port p).qRelay = ahead ++ late.map (·.2) ++ rest
           ∧ (∀ e, e ∈ late ↔ e ∈ (s.port p).qOwn ∧ e.1 + 4 * ms ≤ s.now) ∧ List.Sublist late (s.port p).qOwn
           ∧ (∀ e, e ∈ (t.port p).qOwn ↔ e ∈ (s.port p).qOwn ∧ s.now < e.1 + 4 * ms)
           ∧ (t.port p).qEvent = (s.port p).qEvent ∧ t.port (otherPort p) = s.port (otherPort p))
       ∧ (s.speaks = true → s.ring.supvAt + 2 * sec ≤ s.now → ∃ t, exec .supervisionSend s = .next t ∧ t.ring.supvAt = s.now
         ∧ ∃ n, n < 65536 ∧ ∀ r, (s.port r).state = .up → ∃ g, (t.port r).qOwn = (s.port r).qOwn ++ [(s.now, g)]
           ∧ g.dst = supervisionGroup ∧ g.src = s.address ∧ g.seq = s.ring.seq ∧ g.etherType = etSupervision
           ∧ g.payload = bytesBE 1 2 ++ bytesBE n 2 ++ [23, 6] ++ bytesBE s.address.toNat 6))

/-- R304, Table LN-3: the keeper is the best clock of domain 0; a better one takes its place and ends lock, a worse
one changes nothing, and three intervals without its Announce leave the node without one. R304, R305: the change of
time port after a second of silence on it, the Delay_Req that goes out on the time port alone, and the mean path delay
over the last eight exchanges. The model's own choice here is the comparison of clocks (log 78), and the mean rounded
down (log 77). -/
def Obligations.KeeperAndTimePort : Prop :=
  (∀ (p : Port) (m : AnnounceMsg) (s : State),
     let heeded (t : State) := t.ptp.keeper = some m ∧ t.ptp.lastAnn = some s.now ∧ t.ptp.utc = m.utcOffset ∧ t.ptp.utcOk = m.utcValid
       ∧ t = { s with ptp := t.ptp }
     let dropped (t : State) := t.ptp.timePort = none ∧ t.ptp.delayOk = false ∧ t.ptp.delays = [] ∧ t.ptp.state = .unlocked
     (s.consumes = true → m.domain = 0 → m.steps.toNat < 255 →
       (s.ptp.keeper = none → ∃ t, exec (.announce p m) s = .next t ∧ heeded t ∧ t.ptp.state = s.ptp.state)
       ∧ (∀ k, s.ptp.keeper = some k →
         (m.identity = k.identity → ∃ t, exec (.announce p m) s = .next t ∧ heeded t ∧ t.ptp.timePort = s.ptp.timePort
             ∧ t.ptp.state = s.ptp.state ∧ t.ptp.delays = s.ptp.delays)
         ∧ (m.identity ≠ k.identity → m.priority1 < k.priority1 → ∃ t, exec (.announce p m) s = .next t ∧ heeded t ∧ dropped t)
         ∧ (m.identity ≠ k.identity → m.priority1 = k.priority1 → m.clockClass < k.clockClass →
             ∃ t, exec (.announce p m) s = .next t ∧ heeded t ∧ dropped t)
         ∧ (m.identity ≠ k.identity → k.priority1 < m.priority1 → exec (.announce p m) s = .next s)))
     ∧ (m.domain ≠ 0 → exec (.announce p m) s = .next s)
     ∧ (∀ x, s.ptp.lastAnn = some x → x + 3 * sec ≤ s.now → ∃ t, exec .announceTimeout s = .next t ∧ t = { s with ptp := t.ptp }
         ∧ t.ptp.keeper = none ∧ dropped t ∧ t.ptp.losses = if s.ptp.state = .unlocked then s.ptp.losses else satInc s.ptp.losses))
  ∧ (∀ (p : Port) (s : State), s.ptp.timePort = some p →
       let q := otherPort p
       ((∀ x, s.ptp.lastSync p = some x → x + sec ≤ s.now) → (∃ y, s.ptp.lastSync q = some y ∧ s.now < y + sec) →
         exec .timePortChange s = .next { s with ptp := { s.ptp with
           timePort := some q, delays := [], delayOk := false, switches := satInc s.ptp.switches, burst := 4, asked := 0 } })
       ∧ ((∃ x, s.ptp.lastSync p = some x ∧ s.now < x + sec) → exec .timePortChange s = .next s)
       ∧ (s.speaks = true → s.delayReqDue = true → ∃ t, exec .delayReqSend s = .next t
           ∧ t.ptp.dreqs = s.ptp.dreqs + 1 ∧ t.ptp.dreqAt = s.now ∧ t.ptp.burst = s.ptp.burst - 1 ∧ t.port q = s.port q
           ∧ ((s.port p).state = .up → ∃ g, (t.port p).qEvent = (s.port p).qEvent ++ [g] ∧ g.dst = ptpGroup ∧ g.src = s.address
               ∧ g.etherType = etPtp ∧ g.ptpType = some 1))
       ∧ (∀ r src delay, s.consumes = true → s.keeperAddr = some src → s.ptp.asked ≠ 0 →
           let l := (delay :: s.ptp.delays).take 8
           ∃ t, exec (.delayResp r src delay) s = .next t ∧ t = { s with ptp := t.ptp } ∧ t.ptp.delays = l ∧ t.ptp.delayOk = true
             ∧ t.ptp.mpd * l.length ≤ l.sum ∧ l.sum < (t.ptp.mpd + 1) * l.length))

/-- R305, R306, R308, Table LN-4: a Sync of the keeper on the time port. Without a path delay the servo holds; the
first offset sets SI and steps ring time once, at the next frame boundary (R123); 16 in a row within 200 ns lock, the fourth in a row beyond 800 ns loses
lock, as do 3 s of silence; and no Sync but the first steps ring time. The model's own choice here is the trim of the
servo, a free value (log 76), and what a step of ring time does to SI (log 112). -/
def Obligations.SyncsAndLock : Prop :=
  ∀ (p : Port) (src : BitVec 48) (n : BitVec 16) (master loc : Int) (s : State), s.consumes = true → s.keeperAddr = some src →
    let ofs := loc - master - s.ptp.mpd
    (s.ptp.timePort = none → ∃ t, exec (.sync p src n master loc) s = .next t ∧ t.ptp.timePort = some p)
    ∧ (s.ptp.timePort = some p → ∃ t, exec (.sync p src n master loc) s = .next t ∧ t.ptp.timePort = some p
        ∧ t.ptp.syncs = s.ptp.syncs + 1 ∧ t.mill.keeperAt = s.now
        ∧ (s.ptp.delayOk = false → t.ptp.state = s.ptp.state ∧ t.time = s.time ∧ t.ct = s.ct)
        ∧ (s.ptp.delayOk = true → t.ptp.ofs = ofs ∧ t.time.mono = s.time.mono)
        ∧ (s.ptp.delayOk = true → s.ptp.state = .unlocked → t.ptp.state = .acquiring ∧ t.ct.changes = s.ct.changes
            ∧ t.time = { s.time with step := some ofs })
        ∧ (s.ptp.delayOk = true → s.ptp.state ≠ .unlocked → t.time = s.time ∧ t.ct.changes = s.ct.changes
            ∧ -2000 ≤ t.ct.trim.toInt ∧ t.ct.trim.toInt ≤ 2000
            ∧ (800 < ofs.natAbs → 3 ≤ s.ptp.bad → t.ptp.state = .unlocked ∧ t.ptp.losses = satInc s.ptp.losses)
            ∧ (ofs.natAbs ≤ 200 → s.ptp.state = .acquiring → 15 ≤ s.ptp.good →
                t.ptp.state = .locked ∧ t.ptp.locks = satInc s.ptp.locks)
            ∧ (ofs.natAbs ≤ 800 → (200 < ofs.natAbs ∨ s.ptp.good < 15 ∨ s.ptp.state = .locked) → t.ptp.state = s.ptp.state)
            ∧ (800 < ofs.natAbs → s.ptp.bad < 3 → t.ptp.state = s.ptp.state ∧ t.ptp.good = 0)))
    ∧ (∀ a b, s.ptp.lastSyncA = some a → s.ptp.lastSyncB = some b → a + 3 * sec ≤ s.now → b + 3 * sec ≤ s.now → s.ptp.state ≠ .unlocked →
        ∃ t, exec .syncSilence s = .next t ∧ t = { s with ptp := t.ptp } ∧ t.ptp.state = .unlocked
          ∧ t.ptp.losses = satInc s.ptp.losses ∧ t.ptp.keeper = s.ptp.keeper)
    ∧ (∀ x, s.time.step = some x →
        let t := s.takeStep
        let edges := ((s.time.mono : Int) + s.time.offset - x).toNat * 96 - s.time.siFrac
        t.time.step = none ∧ t.time.offset = s.time.offset - x ∧ t.time.mono = s.time.mono
        ∧ (t.time.si.toNat = (edges / 15625 + if edges % 15625 = 0 then 0 else 1) % 2 ^ 64)
        ∧ (edges + t.time.stretch) % 15625 = 0 ∧ t.time.stretch < 15625
        ∧ t.ct.changes = satInc s.ct.changes ∧ t.ptp = s.ptp
        ∧ (-(2 ^ 35) ≤ (t.time.si.toNat : Int) - s.time.si.toNat → (t.time.si.toNat : Int) - s.time.si.toNat < 2 ^ 35 →
            t.ct.step.toInt = (t.time.si.toNat : Int) - s.time.si.toNat)
        ∧ ∀ l : Lane, t.ct.lanes[l].jump = some (s.time.si, t.time.si))

/-! ### Millrace, bundles and faults -/

/-- R311: a malformed or misaddressed message counts in RMBAD and does nothing else; one for another node, and one that only the
keeper sends and another sent, do nothing, but that a BUNDLE of the keeper for another node counts as heard (Table MD-2); and nothing is taken while the main die is down. R114, R330, R331: the node's entry of
a ROLL, TIME-AUX, and the source of ORDER's speed. The model's own choice here is the age of a ROLL from the instant
in its body (log 103), and when the tachless estimate serves (log 102). -/
def Obligations.MessagesTaken : Prop :=
  (∀ (cmd : Message → Instr) (n : Nat) (m : Message) (s : State), MessageRow cmd n → m.type = n →
     (s.consumes = true → (m.headOk = false ∨ m.bodyOk = false ∨ s.addressed m = false ∧ s.elsewhere m = false) →
       exec (cmd m) s = .next { s with mill := { s.mill with bad := satInc s.mill.bad } })
     ∧ (s.consumes = true → m.headOk = true → m.bodyOk = true → s.elsewhere m = true →
       (n ≠ 3 ∨ s.fromKeeper m = false → exec (cmd m) s = .next s)
       ∧ (n = 3 → s.fromKeeper m = true → ∃ t, exec (.bundle m) s = .next t ∧ t.mill.keeperAt = s.now ∧ t.modes.keeperLost = false
         ∧ t.mill.bad = s.mill.bad ∧ t.ks.transfer = s.ks.transfer))
     ∧ (s.consumes = true → m.headOk = true → m.bodyOk = true → s.addressed m = true → keeperOnly n = true → s.fromKeeper m = false →
       exec (cmd m) s = .next s)
     ∧ (s.consumes = false → exec (cmd m) s = .next s))
  ∧ (∀ s : State,
       (∀ m b, Takes s m 6 → s.code.latched.s = some b → s.bySerial = false →
         let n := (byteAt m.body 8).toNat
         let mine (i : Nat) := byteAt m.body (12 + 6 * i) = b.zeroExtend 8 ∧ (byteAt m.body (13 + 6 * i)).getLsbD 0 = true
         (∀ i, i < n → mine i → (∀ j, j < n → mine j → j = i) → ∃ t, exec (.roll m) s = .next t
           ∧ t.mill.speed.toNat = fieldBE m.body (14 + 6 * i) 4
           ∧ t.mill.rollAt = some (s.now + ((fieldBE m.body 0 8 : Int) - s.ringUs) * 1000).toNat ∧ t.mill.keeperAt = s.now
           ∧ (∀ x w, (s.ctx x).waiting = some w → w.mask.getLsbD evRoll = true → (t.ctx x).waiting = none))
         ∧ ((∀ i, i < n → ¬ mine i) → ∃ t, exec (.roll m) s = .next t ∧ t.mill.speed = s.mill.speed ∧ t.mill.rollAt = s.mill.rollAt
           ∧ t.mill.keeperAt = s.now))
       ∧ (∀ m, Takes s m 5 → exec (.timeAux m) s = .next { s with mill := { s.mill with trace := some m.body } })
       ∧ ∃ t, exec .speedSourceChange s = .next t ∧ t.mill.rollAt = s.mill.rollAt ∧ t.mill.speed = s.mill.speed
         ∧ (t.mill.tachless = true ↔ (∀ x, s.mill.rollAt = some x → x + 2 * sec ≤ s.now) ∨ (s.inAct mHold = true ∧ s.inAct mOrder = true))
         ∧ ∀ u, (t.tfind u).flags = if t.mill.tachless ≠ s.mill.tachless
             then (s.tfind u).flags ||| (1#32 <<< 14) else (s.tfind u).flags)

/-- R313 to R315, Table MR-10: the PULSE that goes out, and what one that comes leaves; a buddy's ends its loss, one
by GOING only in a new run. R26: any PULSE since the node's own start makes a buddy present, after a GOING before the first house
verdict one that follows the verdict. R315, R316, R373: the loss of a present buddy by silence, by a LOSS and by a GOING, its
repetition, and a LOSS that names the receiver. While the brown-out filter runs a loss is held. The model's own choice
here is that the ring map takes a PULSE of any tag (log 90), and the basis that a return carries (log 91). -/
def Obligations.Buddies : Prop :=
  (∀ s : State,
     (s.speaks = true → (s.mill.pulses = 0 ∨ s.mill.pulseAt + 99 * ms ≤ s.now) → ∃ t body, exec .pulseSend s = .next t
       ∧ t.mill.pulses = s.mill.pulses + 1 ∧ t.mill.pulseAt = s.now ∧ t.mill.map = s.mill.map
       ∧ QueuesMillrace s t nodeGroup 0x01 body ∧ body.length = 16
       ∧ fieldBE body 0 8 = s.lock.nonce.toNat ∧ fieldBE body 8 4 = (s.mill.pulses + 1).toNat
       ∧ byteAt body 12 = (s.tfind 0).verdict.code ∧ (byteAt body 13).getLsbD 0 = s.power.hale ∧ byteAt body 14 = s.modes.act)
     ∧ ∀ m, Takes s m 1 →
       (64 ≤ m.socket.toNat → exec (.pulse m) s = .next s)
       ∧ (m.socket.toNat < 64 →
         let b : BitVec 6 := m.socket.extractLsb' 0 6
         ∃ t, exec (.pulse m) s = .next t ∧ (t.socket b).heard = true ∧ (t.socket b).serial = m.serial ∧ (t.socket b).at_ = s.now
           ∧ (t.socket b).nonce.toNat = fieldBE m.body 0 8 ∧ (t.socket b).lostCnt = byteAt m.body 15
           ∧ (∀ d, d ≠ b → t.socket d = s.socket d)
           ∧ (m.tag = s.ring.tag → b ∈ s.mill.buddies
               → (t.socket b).present = ((s.socket b).present || s.speaks || !(s.socket b).early)
               ∧ (t.socket b).lost = ((s.socket b).lost && decide ((s.socket b).basis = 2)
                   && decide ((s.socket b).nonce.toNat = fieldBE m.body 0 8)))
           ∧ (m.tag ≠ s.ring.tag ∨ b ∉ s.mill.buddies → (t.socket b).lost = (s.socket b).lost ∧ t.modes = s.modes)))
  ∧ (∀ (m : Message) (b : BitVec 6) (s : State), Takes s m 9 → m.socket = b.zeroExtend 8 → s.find.verdictAt = none →
       ∃ t, exec (.going m) s = .next t ∧ (t.socket b).present = false ∧ (t.socket b).early = true
         ∧ (t.socket b).lost = (s.socket b).lost ∧ t.modes = s.modes)
  ∧ (∀ (b : BitVec 6) (s : State), s.speaks = true →
       (s.watched b = true → s.power.filter = none →
         ((s.socket b).at_ + 520 * ms ≤ s.now → ∃ t, exec (.buddySilence b) s = .next t ∧ DeclaredLost s t b 1)
         ∧ (∀ m, Takes s m 8 → byteAt m.body 0 = b.zeroExtend 8 → (s.bySerial = true ∨ s.code.latched.s ≠ some b) →
             ((s.socket b).count.toNat ≤ fieldBE m.body 12 4 → ∃ t, exec (.loss m) s = .next t ∧ DeclaredLost s t b 3)
             ∧ (fieldBE m.body 12 4 < (s.socket b).count.toNat → exec (.loss m) s = .next s))
         ∧ (∀ m, Takes s m 9 → m.socket = b.zeroExtend 8 → m.tag = s.ring.tag → ∃ t, exec (.going m) s = .next t ∧ DeclaredLost s t b 2
             ∧ (t.socket b).goCause = (byteAt m.body 0).extractLsb' 0 3 ∧ (t.socket b).serial = m.serial))
       ∧ (s.watched b = true → s.power.filter.isSome = true → (s.socket b).at_ + 520 * ms ≤ s.now →
           ∃ t, exec (.buddySilence b) s = .next t ∧ HeldLoss.silence b ∈ t.power.held ∧ t.mill = s.mill)
       ∧ (b ∈ s.mill.buddies → (s.socket b).lost = true → (s.socket b).lossAt + 10 * sec ≤ s.now → s.power.filter = none →
           ∃ t body, exec (.lossRepeat b) s = .next t ∧ (t.socket b).lossAt = s.now ∧ QueuesMillrace s t nodeGroup 0x08 body
             ∧ byteAt body 0 = b.zeroExtend 8 ∧ t.modes = s.modes)
       ∧ (∀ m, Takes s m 8 → byteAt m.body 0 = b.zeroExtend 8 → s.bySerial = false → s.code.latched.s = some b →
           ∃ t body, exec (.loss m) s = .next t ∧ t.mill.self_ = satInc s.mill.self_ ∧ t.mill.pulses = s.mill.pulses + 1
             ∧ QueuesMillrace s t nodeGroup 0x01 body ∧ t.mill.map = s.mill.map))

/-- R293, R318, R319, Table MR-4: a census query waits for serial[7:0] ms, and its tag is in force from the answer on.
R332, R333: two nodes that use one address: the higher serial yields its address and its buddies, and either sends a
TWIN. The model's own choice here is a second query before the answer (log 104), and the twin's serial and a repeat
(log 100). -/
def Obligations.CensusAndTwins : Prop :=
  (∀ s : State,
     (∀ m, Takes s m 7 → let b := m.body
       (badQuery b = true → ∃ t, exec (.census m) s = .next t ∧ t.mill.bad = satInc s.mill.bad ∧ t.mill.census = s.mill.census
         ∧ t.ring.tag = s.ring.tag)
       ∧ (badQuery b = false → s.speaks = true → ∃ t c, exec (.census m) s = .next t ∧ t.mill.census = some c
         ∧ c.tag.toNat = fieldBE b 2 2 ∧ c.number.toNat = fieldBE b 4 2 ∧ c.table = slice b 71 128
         ∧ c.due = s.now + Config.deviceSerial.toNat % 256 * ms ∧ t.ring.tag = s.ring.tag ∧ t.mill.bad = s.mill.bad)
       ∧ (badQuery b = false → s.speaks = false → ∃ t, exec (.census m) s = .next t ∧ t.mill.census = s.mill.census
         ∧ t.ring.tag = s.ring.tag))
     ∧ (∀ c, s.mill.census = some c → c.due ≤ s.now → s.speaks = true → ∃ t body, exec .censusAnswer s = .next t
         ∧ t.ring.tag = c.tag ∧ t.mill.census = none ∧ t.mill.answered = true ∧ QueuesMillrace s t keeperGroup 0x07 body
         ∧ byteAt body 0 = 2 ∧ fieldBE body 2 2 = c.number.toNat ∧ fieldBE body 4 8 = s.lock.nonce.toNat))
  ∧ (∀ (m : Message) (s : State), Takes s m 10 → fieldBE m.body 0 6 = s.address.toNat → m.serial ≠ Config.deviceSerial →
       s.speaks = true → m.serial ∉ s.mill.twins →
       let yields := m.serial < Config.deviceSerial
       ∃ t body, exec (.twin m) s = .next t
         ∧ t.ring.form = (if yields then (match s.ring.form with
             | .s => .a
             | .a => .b
             | _ => .c) else s.ring.form)
         ∧ t.mill.buddies = (if yields then [] else s.mill.buddies) ∧ m.serial ∈ t.mill.twins
         ∧ t.code = s.code ∧ QueuesMillrace s t nodeGroup 0x0a body
         ∧ fieldBE body 0 6 = s.address.toNat ∧ byteAt body 6 = (if yields then 1 else 0) ∧ fieldBE body 8 8 = m.serial.toNat)

/-- R327: a bundle's segments. One of a new transfer opens it, another's is discarded until the open one has been idle
for 2 s, a range past T and bytes that differ abandon it, and every end erases the area before the next. The model's
own choice here is a segment with another total (log 79), and that RMBXF counts idle transfers alone (log 124). -/
def Obligations.BundleTransfers : Prop :=
  ∀ (m : Message) (s : State), Takes s m 3 → s.speaks = true →
    let b := m.body
    let number := fieldBE b 0 2
    let total := fieldBE b 2 4
    let off := fieldBE b 6 4
    let len := b.length - 10
    let ended (t : State) := t.ks.transfer = none ∧ t.ks.erasing = true ∧ t.ks.eraseFrom = s.now
    (s.ks.erasing = true → ∃ t, exec (.bundle m) s = .next t ∧ t.ks.transfer = s.ks.transfer ∧ t.ks.area = s.ks.area
      ∧ t.ks.erasing = true ∧ t.lock = s.lock)
    ∧ (s.ks.erasing = false → s.ks.transfer = none → s.ks.area = [] → 132 ≤ total → total ≤ 93452 → off + len ≤ total → len < total →
        ∃ t, exec (.bundle m) s = .next t ∧ t.ks.erasing = false ∧ t.lock = s.lock
          ∧ t.ks.transfer = some { number := BitVec.ofNat 16 number, total := total, lastAt := s.now, source := m.src }
          ∧ t.ks.area = (List.range len).map (fun i => (off + i, byteAt b (10 + i))))
    ∧ (∀ x, s.ks.erasing = false → s.ks.transfer = some x →
      (x.number.toNat ≠ number → s.now < x.lastAt + 2 * sec → ∃ t, exec (.bundle m) s = .next t ∧ t.ks.transfer = some x
        ∧ t.ks.area = s.ks.area ∧ t.mill.bxf = s.mill.bxf ∧ t.lock = s.lock)
      ∧ (x.number.toNat ≠ number → x.lastAt + 2 * sec ≤ s.now → ∀ cmd, cmd = Instr.bundle m ∨ cmd = .bundleTransferTimeout m →
          ∃ t, exec cmd s = .next t ∧ ended t ∧ t.mill.bxf = satInc s.mill.bxf ∧ t.lock = s.lock)
      ∧ (x.number.toNat = number →
          (x.total < off + len ∨ ∃ i c, i < len ∧ s.ks.area.find? (fun e => decide (e.1 = off + i)) = some c ∧ c.2 ≠ byteAt b (10 + i)) →
          ∃ t, exec (.bundle m) s = .next t ∧ ended t ∧ t.mill.bxf = s.mill.bxf ∧ t.lock = s.lock))
    ∧ (s.ks.erasing = false → s.ks.transfer = none → s.ks.area = [] → 132 ≤ total → off = 0 → len = total →
        bdKind (b.drop 10) = some .restart → ∃ t, exec (.bundle m) s = .next t ∧ ended t ∧ t.lock.staging = s.lock.staging
          ∧ t.lock.refused.map (·.code) = some 1)

/-- R61, R62, R84, R327, R328: the area is erased, a staged bundle stands in its slot with its closing pages and is
acknowledged, and a sector's erase gives its pages back and goes on while the finding ledger has another sector without an unreplayed
finding, or another region fewer than 40 pairs erased. R92, R329: RESTART. A bundle of another kind is refused with
FORMAT; one that fails a check is refused with that check's code and stops nothing, and one that passes them all
begins the stop with its reason. The model's own choice here is the pages that a sector's erase gives back (log 62),
and that Keepsake is held by its records (log 12). -/
def Obligations.StagingAndRestart : Prop :=
  (∀ s : State, s.power.phase = .run →
     (s.ks.erasing = true → exec .reassemblyEraseComplete s = .next { s with ks := { s.ks with erasing := false, area := [] } })
     ∧ (∀ x, s.lock.staging = [x] → x.kind ≠ .restart → x.bundle.length ≤ 244 * (x.kind.pages - 1) → ∃ t, exec .stagingComplete s = .next t ∧ t.lock.staging = []
         ∧ t.lock.staged = satInc s.lock.staged
         ∧ ((t.ks.pair x.kind x.tenant).get x.slotB).bundle = x.bundle ∧ ((t.ks.pair x.kind x.tenant).get x.slotB).isClosed = true
         ∧ ((t.ks.pair x.kind x.tenant).get x.slotB).readable = true
         ∧ (t.ks.pair x.kind x.tenant).get (!x.slotB) = (s.ks.pair x.kind x.tenant).get (!x.slotB)
         ∧ (s.speaks = true → ∃ body, QueuesMillrace s t x.source 0x04 body ∧ body.length = 40
             ∧ fieldBE body 0 2 = x.transfer.toNat ∧ byteAt body 2 = 0))
     ∧ (∀ r, r ∈ s.ks.eraseSector → ∃ t, exec (.sectorEraseComplete r) s = .next t
         ∧ t.ks.reserve[ksIndex r] = s.ks.reserve[ksIndex r] + 8
         ∧ (∀ i, i ≠ ksIndex r → t.ks.reserve[i] = s.ks.reserve[i]) ∧ t.ks.ledger = s.ks.ledger
         ∧ (r ∈ t.ks.eraseSector ↔ match r with
             | .findingLedger => s.ks.reserve[ksIndex r] + 16 + s.ks.livePairs ≤ 8192
             | _ => s.ks.reserve[ksIndex r] + 8 < 40)))
  ∧ (∀ (m : Message) (s : State), Takes s m 11 →
       (bdKind m.body ≠ some .restart → ∃ t, exec (.restart m) s = .next t ∧ t.power = s.power ∧ t.lock.refused.map (·.code) = some 1)
       ∧ (∃ t, exec (.restart m) s = .next t ∧ match firstFail (s.restartTests m.body) with
           | some code => t.power = s.power ∧ t.lock.refused.map (·.code) = some (BitVec.ofNat 8 code)
           | none => StopBegun s t .restart (BitVec.ofNat 32 (fieldBE m.body 112 4))))

/-- R243, R358 to R360, R375: the fault stack, whose fault in hand stays until its flush is complete, the counted interval and the pages of the fault ledger. R358, R359: the place
of a new C2 or C3 fault: above one of a lower class, which is preempted, and otherwise behind the queued faults of its
class or higher; the fifth becomes ESCALATED and stops the node. Its entry carries the next number, and bit 4 when
another was in hand. The model's own choice here is that Keepsake is held by its records (log 12). -/
def Obligations.FaultLedger : Prop :=
  (∀ s : State, s.power.phase = .run →
     (∀ f rest, s.faults.stack = f :: rest →
       let pending := f.cls = 2 ∧ (∃ n : NiId, (s.net.flushing[n]).getLsbD f.ctx.val = true)
         ∨ f.cls = 3 ∧ ∃ n : NiId, s.net.flushing[n] ≠ 0
       (pending → exec .faultHandlingComplete s = .next s)
       ∧ (¬ pending → ∃ t, exec .faultHandlingComplete s = .next t ∧ t = { s with faults := t.faults }
       ∧ t.faults.stack.length = rest.length ∧ t.faults.stack.tail = rest.tail
       ∧ (∀ g, rest.head? = some g → t.faults.stack.head? = some { g with preempted := false })
       ∧ t.faults.waiting = s.faults.waiting))
     ∧ (s.faults.interval + 10 * sec ≤ s.now →
       (s.faults.counted = [] → exec .countedInterval s
         = .next { s with faults := { s.faults with interval := s.faults.interval + 10 * sec } })
       ∧ (∀ code obj n, s.faults.counted = [(code, obj, n)] → code.toNat ∈ countedKinds → 0 < n → s.faults.waiting.length < 64 →
         ∃ t e, exec .countedInterval s = .next t ∧ t.faults.interval = s.faults.interval + 10 * sec ∧ t.faults.counted = []
           ∧ t.faults.waiting = s.faults.waiting ++ [e] ∧ e.code = code ∧ e.object = obj ∧ e.detail.toNat = Nat.min n 0xffff ∧ e.cls = 1
           ∧ e.number = s.ks.nextEntry ∧ t.ks.nextEntry = s.ks.nextEntry + 1 ∧ t.faults.counts[(0 : Fin 4)] = satInc s.faults.counts[(0 : Fin 4)]
           ∧ t.faults.stack = s.faults.stack))
     ∧ (∀ e rest, s.faults.waiting = e :: rest → (15 ≤ s.faults.waiting.length ∨ e.at_ + 10 * sec ≤ s.now) →
       ∃ t, exec .faultLedgerPageWrite s = .next t ∧ t.faults.waiting = s.faults.waiting.drop 15
         ∧ t.ks.faultPages = s.ks.faultPages ++ [s.faults.waiting.take 15]
         ∧ (∀ l, (s.faults.waiting.take 15).getLast? = some l → t.ks.persisted = l.number)
         ∧ t.faults.stack = s.faults.stack ∧ t.ks.nextEntry = s.ks.nextEntry))
  ∧ (∀ (s : State) (code : Nat) (obj : Byte) (detail : Nat) (c : Option Ctx) (u : Option UnitId),
       (0x30 ≤ code ∧ code ≤ 0x36 ∨ 0x50 ≤ code ∧ code ≤ 0x53) → s.faults.waiting.length < 64 →
       let cls := if code < 0x50 then 2 else 3
       let f : FaultInHand := { code := BitVec.ofNat 8 code, cls := cls, ctx := c.getD 0, preempted := false }
       let t := s.takeFault code obj detail c u
       (s.faults.stack.length < 4 →
         (s.faults.stack = [] → t.faults.stack = [f])
         ∧ (∀ h q, s.faults.stack = h :: q →
           (h.cls < cls → t.faults.stack = f :: { h with preempted := true } :: q)
           ∧ (cls ≤ h.cls → ∃ a b, q = a ++ b ∧ t.faults.stack = h :: a ++ f :: b ∧ (∀ g ∈ a, cls ≤ g.cls)
               ∧ ∀ g, b.head? = some g → g.cls < cls))
         ∧ t.power = s.power
         ∧ ∃ e, t.faults.waiting = s.faults.waiting ++ [e] ∧ e.number = s.ks.nextEntry ∧ e.cls = cls ∧ e.code = BitVec.ofNat 8 code
             ∧ e.object = obj ∧ e.escalated = false ∧ (e.nested = true ↔ s.faults.stack ≠ []))
       ∧ (4 ≤ s.faults.stack.length → s.power.phase = .run → t.power.phase = .stopping ∧ t.power.stopCause = .c4
           ∧ t.faults.escal = satInc s.faults.escal))
end

