-- ==== Sys2Proof/Laws/State.lean ====
section
/-! SUPPORT. What each named update of the state leaves alone and what it changes: one lemma per field per update. -/

namespace Sys2Proof.Machine

variable (s : State)


/-! ### `setCtx` -/

@[simp] theorem State.setCtx_pending (t : Ctx) (c : Context) : (s.setCtx t c).pending = s.pending := rfl
@[simp] theorem State.setCtx_free (t : Ctx) (c : Context) : (s.setCtx t c).free = s.free := rfl
@[simp] theorem State.setCtx_time (t : Ctx) (c : Context) : (s.setCtx t c).time = s.time := rfl
@[simp] theorem State.setCtx_power (t : Ctx) (c : Context) : (s.setCtx t c).power = s.power := rfl
@[simp] theorem State.setCtx_code (t : Ctx) (c : Context) : (s.setCtx t c).code = s.code := rfl
@[simp] theorem State.setCtx_lock (t : Ctx) (c : Context) : (s.setCtx t c).lock = s.lock := rfl
@[simp] theorem State.setCtx_ks (t : Ctx) (c : Context) : (s.setCtx t c).ks = s.ks := rfl
@[simp] theorem State.setCtx_modes (t : Ctx) (c : Context) : (s.setCtx t c).modes = s.modes := rfl
@[simp] theorem State.setCtx_ct (t : Ctx) (c : Context) : (s.setCtx t c).ct = s.ct := rfl
@[simp] theorem State.setCtx_braid (t : Ctx) (c : Context) : (s.setCtx t c).braid = s.braid := rfl
@[simp] theorem State.setCtx_sluice (t : Ctx) (c : Context) : (s.setCtx t c).sluice = s.sluice := rfl
@[simp] theorem State.setCtx_units (t : Ctx) (c : Context) : (s.setCtx t c).units = s.units := rfl
@[simp] theorem State.setCtx_net (t : Ctx) (c : Context) : (s.setCtx t c).net = s.net := rfl
@[simp] theorem State.setCtx_banks (t : Ctx) (c : Context) : (s.setCtx t c).banks = s.banks := rfl
@[simp] theorem State.setCtx_pool (t : Ctx) (c : Context) : (s.setCtx t c).pool = s.pool := rfl
@[simp] theorem State.setCtx_eddy (t : Ctx) (c : Context) : (s.setCtx t c).eddy = s.eddy := rfl
@[simp] theorem State.setCtx_poison (t : Ctx) (c : Context) : (s.setCtx t c).poison = s.poison := rfl
@[simp] theorem State.setCtx_weir (t : Ctx) (c : Context) : (s.setCtx t c).weir = s.weir := rfl
@[simp] theorem State.setCtx_mea (t : Ctx) (c : Context) : (s.setCtx t c).mea = s.mea := rfl
@[simp] theorem State.setCtx_ring (t : Ctx) (c : Context) : (s.setCtx t c).ring = s.ring := rfl
@[simp] theorem State.setCtx_ptp (t : Ctx) (c : Context) : (s.setCtx t c).ptp = s.ptp := rfl
@[simp] theorem State.setCtx_mill (t : Ctx) (c : Context) : (s.setCtx t c).mill = s.mill := rfl
@[simp] theorem State.setCtx_gauge (t : Ctx) (c : Context) : (s.setCtx t c).gauge = s.gauge := rfl
@[simp] theorem State.setCtx_faults (t : Ctx) (c : Context) : (s.setCtx t c).faults = s.faults := rfl
@[simp] theorem State.setCtx_find (t : Ctx) (c : Context) : (s.setCtx t c).find = s.find := rfl

/-! ### `modCtx` -/

@[simp] theorem State.modCtx_pending (t : Ctx) (f : Context → Context) : (s.modCtx t f).pending = s.pending := rfl
@[simp] theorem State.modCtx_free (t : Ctx) (f : Context → Context) : (s.modCtx t f).free = s.free := rfl
@[simp] theorem State.modCtx_time (t : Ctx) (f : Context → Context) : (s.modCtx t f).time = s.time := rfl
@[simp] theorem State.modCtx_power (t : Ctx) (f : Context → Context) : (s.modCtx t f).power = s.power := rfl
@[simp] theorem State.modCtx_code (t : Ctx) (f : Context → Context) : (s.modCtx t f).code = s.code := rfl
@[simp] theorem State.modCtx_lock (t : Ctx) (f : Context → Context) : (s.modCtx t f).lock = s.lock := rfl
@[simp] theorem State.modCtx_ks (t : Ctx) (f : Context → Context) : (s.modCtx t f).ks = s.ks := rfl
@[simp] theorem State.modCtx_modes (t : Ctx) (f : Context → Context) : (s.modCtx t f).modes = s.modes := rfl
@[simp] theorem State.modCtx_ct (t : Ctx) (f : Context → Context) : (s.modCtx t f).ct = s.ct := rfl
@[simp] theorem State.modCtx_braid (t : Ctx) (f : Context → Context) : (s.modCtx t f).braid = s.braid := rfl
@[simp] theorem State.modCtx_sluice (t : Ctx) (f : Context → Context) : (s.modCtx t f).sluice = s.sluice := rfl
@[simp] theorem State.modCtx_units (t : Ctx) (f : Context → Context) : (s.modCtx t f).units = s.units := rfl
@[simp] theorem State.modCtx_net (t : Ctx) (f : Context → Context) : (s.modCtx t f).net = s.net := rfl
@[simp] theorem State.modCtx_banks (t : Ctx) (f : Context → Context) : (s.modCtx t f).banks = s.banks := rfl
@[simp] theorem State.modCtx_pool (t : Ctx) (f : Context → Context) : (s.modCtx t f).pool = s.pool := rfl
@[simp] theorem State.modCtx_eddy (t : Ctx) (f : Context → Context) : (s.modCtx t f).eddy = s.eddy := rfl
@[simp] theorem State.modCtx_poison (t : Ctx) (f : Context → Context) : (s.modCtx t f).poison = s.poison := rfl
@[simp] theorem State.modCtx_weir (t : Ctx) (f : Context → Context) : (s.modCtx t f).weir = s.weir := rfl
@[simp] theorem State.modCtx_mea (t : Ctx) (f : Context → Context) : (s.modCtx t f).mea = s.mea := rfl
@[simp] theorem State.modCtx_ring (t : Ctx) (f : Context → Context) : (s.modCtx t f).ring = s.ring := rfl
@[simp] theorem State.modCtx_ptp (t : Ctx) (f : Context → Context) : (s.modCtx t f).ptp = s.ptp := rfl
@[simp] theorem State.modCtx_mill (t : Ctx) (f : Context → Context) : (s.modCtx t f).mill = s.mill := rfl
@[simp] theorem State.modCtx_gauge (t : Ctx) (f : Context → Context) : (s.modCtx t f).gauge = s.gauge := rfl
@[simp] theorem State.modCtx_faults (t : Ctx) (f : Context → Context) : (s.modCtx t f).faults = s.faults := rfl
@[simp] theorem State.modCtx_find (t : Ctx) (f : Context → Context) : (s.modCtx t f).find = s.find := rfl

/-! ### `modArch` -/

@[simp] theorem State.modArch_pending (t : Ctx) (f : Arch → Arch) : (s.modArch t f).pending = s.pending := rfl
@[simp] theorem State.modArch_free (t : Ctx) (f : Arch → Arch) : (s.modArch t f).free = s.free := rfl
@[simp] theorem State.modArch_time (t : Ctx) (f : Arch → Arch) : (s.modArch t f).time = s.time := rfl
@[simp] theorem State.modArch_power (t : Ctx) (f : Arch → Arch) : (s.modArch t f).power = s.power := rfl
@[simp] theorem State.modArch_code (t : Ctx) (f : Arch → Arch) : (s.modArch t f).code = s.code := rfl
@[simp] theorem State.modArch_lock (t : Ctx) (f : Arch → Arch) : (s.modArch t f).lock = s.lock := rfl
@[simp] theorem State.modArch_ks (t : Ctx) (f : Arch → Arch) : (s.modArch t f).ks = s.ks := rfl
@[simp] theorem State.modArch_modes (t : Ctx) (f : Arch → Arch) : (s.modArch t f).modes = s.modes := rfl
@[simp] theorem State.modArch_ct (t : Ctx) (f : Arch → Arch) : (s.modArch t f).ct = s.ct := rfl
@[simp] theorem State.modArch_braid (t : Ctx) (f : Arch → Arch) : (s.modArch t f).braid = s.braid := rfl
@[simp] theorem State.modArch_sluice (t : Ctx) (f : Arch → Arch) : (s.modArch t f).sluice = s.sluice := rfl
@[simp] theorem State.modArch_units (t : Ctx) (f : Arch → Arch) : (s.modArch t f).units = s.units := rfl
@[simp] theorem State.modArch_net (t : Ctx) (f : Arch → Arch) : (s.modArch t f).net = s.net := rfl
@[simp] theorem State.modArch_banks (t : Ctx) (f : Arch → Arch) : (s.modArch t f).banks = s.banks := rfl
@[simp] theorem State.modArch_pool (t : Ctx) (f : Arch → Arch) : (s.modArch t f).pool = s.pool := rfl
@[simp] theorem State.modArch_eddy (t : Ctx) (f : Arch → Arch) : (s.modArch t f).eddy = s.eddy := rfl
@[simp] theorem State.modArch_poison (t : Ctx) (f : Arch → Arch) : (s.modArch t f).poison = s.poison := rfl
@[simp] theorem State.modArch_weir (t : Ctx) (f : Arch → Arch) : (s.modArch t f).weir = s.weir := rfl
@[simp] theorem State.modArch_mea (t : Ctx) (f : Arch → Arch) : (s.modArch t f).mea = s.mea := rfl
@[simp] theorem State.modArch_ring (t : Ctx) (f : Arch → Arch) : (s.modArch t f).ring = s.ring := rfl
@[simp] theorem State.modArch_ptp (t : Ctx) (f : Arch → Arch) : (s.modArch t f).ptp = s.ptp := rfl
@[simp] theorem State.modArch_mill (t : Ctx) (f : Arch → Arch) : (s.modArch t f).mill = s.mill := rfl
@[simp] theorem State.modArch_gauge (t : Ctx) (f : Arch → Arch) : (s.modArch t f).gauge = s.gauge := rfl
@[simp] theorem State.modArch_faults (t : Ctx) (f : Arch → Arch) : (s.modArch t f).faults = s.faults := rfl
@[simp] theorem State.modArch_find (t : Ctx) (f : Arch → Arch) : (s.modArch t f).find = s.find := rfl

/-! ### `setUnit` -/

@[simp] theorem State.setUnit_pending (n : UnitId) (u : HUnit) : (s.setUnit n u).pending = s.pending := rfl
@[simp] theorem State.setUnit_free (n : UnitId) (u : HUnit) : (s.setUnit n u).free = s.free := rfl
@[simp] theorem State.setUnit_time (n : UnitId) (u : HUnit) : (s.setUnit n u).time = s.time := rfl
@[simp] theorem State.setUnit_power (n : UnitId) (u : HUnit) : (s.setUnit n u).power = s.power := rfl
@[simp] theorem State.setUnit_code (n : UnitId) (u : HUnit) : (s.setUnit n u).code = s.code := rfl
@[simp] theorem State.setUnit_lock (n : UnitId) (u : HUnit) : (s.setUnit n u).lock = s.lock := rfl
@[simp] theorem State.setUnit_ks (n : UnitId) (u : HUnit) : (s.setUnit n u).ks = s.ks := rfl
@[simp] theorem State.setUnit_modes (n : UnitId) (u : HUnit) : (s.setUnit n u).modes = s.modes := rfl
@[simp] theorem State.setUnit_ct (n : UnitId) (u : HUnit) : (s.setUnit n u).ct = s.ct := rfl
@[simp] theorem State.setUnit_braid (n : UnitId) (u : HUnit) : (s.setUnit n u).braid = s.braid := rfl
@[simp] theorem State.setUnit_sluice (n : UnitId) (u : HUnit) : (s.setUnit n u).sluice = s.sluice := rfl
@[simp] theorem State.setUnit_ctxs (n : UnitId) (u : HUnit) : (s.setUnit n u).ctxs = s.ctxs := rfl
@[simp] theorem State.setUnit_net (n : UnitId) (u : HUnit) : (s.setUnit n u).net = s.net := rfl
@[simp] theorem State.setUnit_banks (n : UnitId) (u : HUnit) : (s.setUnit n u).banks = s.banks := rfl
@[simp] theorem State.setUnit_pool (n : UnitId) (u : HUnit) : (s.setUnit n u).pool = s.pool := rfl
@[simp] theorem State.setUnit_eddy (n : UnitId) (u : HUnit) : (s.setUnit n u).eddy = s.eddy := rfl
@[simp] theorem State.setUnit_poison (n : UnitId) (u : HUnit) : (s.setUnit n u).poison = s.poison := rfl
@[simp] theorem State.setUnit_weir (n : UnitId) (u : HUnit) : (s.setUnit n u).weir = s.weir := rfl
@[simp] theorem State.setUnit_mea (n : UnitId) (u : HUnit) : (s.setUnit n u).mea = s.mea := rfl
@[simp] theorem State.setUnit_ring (n : UnitId) (u : HUnit) : (s.setUnit n u).ring = s.ring := rfl
@[simp] theorem State.setUnit_ptp (n : UnitId) (u : HUnit) : (s.setUnit n u).ptp = s.ptp := rfl
@[simp] theorem State.setUnit_mill (n : UnitId) (u : HUnit) : (s.setUnit n u).mill = s.mill := rfl
@[simp] theorem State.setUnit_gauge (n : UnitId) (u : HUnit) : (s.setUnit n u).gauge = s.gauge := rfl
@[simp] theorem State.setUnit_faults (n : UnitId) (u : HUnit) : (s.setUnit n u).faults = s.faults := rfl
@[simp] theorem State.setUnit_find (n : UnitId) (u : HUnit) : (s.setUnit n u).find = s.find := rfl

/-! ### `modUnit` -/

@[simp] theorem State.modUnit_pending (n : UnitId) (f : HUnit → HUnit) : (s.modUnit n f).pending = s.pending := rfl
@[simp] theorem State.modUnit_free (n : UnitId) (f : HUnit → HUnit) : (s.modUnit n f).free = s.free := rfl
@[simp] theorem State.modUnit_time (n : UnitId) (f : HUnit → HUnit) : (s.modUnit n f).time = s.time := rfl
@[simp] theorem State.modUnit_power (n : UnitId) (f : HUnit → HUnit) : (s.modUnit n f).power = s.power := rfl
@[simp] theorem State.modUnit_code (n : UnitId) (f : HUnit → HUnit) : (s.modUnit n f).code = s.code := rfl
@[simp] theorem State.modUnit_lock (n : UnitId) (f : HUnit → HUnit) : (s.modUnit n f).lock = s.lock := rfl
@[simp] theorem State.modUnit_ks (n : UnitId) (f : HUnit → HUnit) : (s.modUnit n f).ks = s.ks := rfl
@[simp] theorem State.modUnit_modes (n : UnitId) (f : HUnit → HUnit) : (s.modUnit n f).modes = s.modes := rfl
@[simp] theorem State.modUnit_ct (n : UnitId) (f : HUnit → HUnit) : (s.modUnit n f).ct = s.ct := rfl
@[simp] theorem State.modUnit_braid (n : UnitId) (f : HUnit → HUnit) : (s.modUnit n f).braid = s.braid := rfl
@[simp] theorem State.modUnit_sluice (n : UnitId) (f : HUnit → HUnit) : (s.modUnit n f).sluice = s.sluice := rfl
@[simp] theorem State.modUnit_ctxs (n : UnitId) (f : HUnit → HUnit) : (s.modUnit n f).ctxs = s.ctxs := rfl
@[simp] theorem State.modUnit_net (n : UnitId) (f : HUnit → HUnit) : (s.modUnit n f).net = s.net := rfl
@[simp] theorem State.modUnit_banks (n : UnitId) (f : HUnit → HUnit) : (s.modUnit n f).banks = s.banks := rfl
@[simp] theorem State.modUnit_pool (n : UnitId) (f : HUnit → HUnit) : (s.modUnit n f).pool = s.pool := rfl
@[simp] theorem State.modUnit_eddy (n : UnitId) (f : HUnit → HUnit) : (s.modUnit n f).eddy = s.eddy := rfl
@[simp] theorem State.modUnit_poison (n : UnitId) (f : HUnit → HUnit) : (s.modUnit n f).poison = s.poison := rfl
@[simp] theorem State.modUnit_weir (n : UnitId) (f : HUnit → HUnit) : (s.modUnit n f).weir = s.weir := rfl
@[simp] theorem State.modUnit_mea (n : UnitId) (f : HUnit → HUnit) : (s.modUnit n f).mea = s.mea := rfl
@[simp] theorem State.modUnit_ring (n : UnitId) (f : HUnit → HUnit) : (s.modUnit n f).ring = s.ring := rfl
@[simp] theorem State.modUnit_ptp (n : UnitId) (f : HUnit → HUnit) : (s.modUnit n f).ptp = s.ptp := rfl
@[simp] theorem State.modUnit_mill (n : UnitId) (f : HUnit → HUnit) : (s.modUnit n f).mill = s.mill := rfl
@[simp] theorem State.modUnit_gauge (n : UnitId) (f : HUnit → HUnit) : (s.modUnit n f).gauge = s.gauge := rfl
@[simp] theorem State.modUnit_faults (n : UnitId) (f : HUnit → HUnit) : (s.modUnit n f).faults = s.faults := rfl
@[simp] theorem State.modUnit_find (n : UnitId) (f : HUnit → HUnit) : (s.modUnit n f).find = s.find := rfl

/-! ### `modStrip` -/

@[simp] theorem State.modStrip_pending (k : Strip) (f : StripState → StripState) : (s.modStrip k f).pending = s.pending := rfl
@[simp] theorem State.modStrip_free (k : Strip) (f : StripState → StripState) : (s.modStrip k f).free = s.free := rfl
@[simp] theorem State.modStrip_time (k : Strip) (f : StripState → StripState) : (s.modStrip k f).time = s.time := rfl
@[simp] theorem State.modStrip_power (k : Strip) (f : StripState → StripState) : (s.modStrip k f).power = s.power := rfl
@[simp] theorem State.modStrip_code (k : Strip) (f : StripState → StripState) : (s.modStrip k f).code = s.code := rfl
@[simp] theorem State.modStrip_lock (k : Strip) (f : StripState → StripState) : (s.modStrip k f).lock = s.lock := rfl
@[simp] theorem State.modStrip_ks (k : Strip) (f : StripState → StripState) : (s.modStrip k f).ks = s.ks := rfl
@[simp] theorem State.modStrip_modes (k : Strip) (f : StripState → StripState) : (s.modStrip k f).modes = s.modes := rfl
@[simp] theorem State.modStrip_ct (k : Strip) (f : StripState → StripState) : (s.modStrip k f).ct = s.ct := rfl
@[simp] theorem State.modStrip_sluice (k : Strip) (f : StripState → StripState) : (s.modStrip k f).sluice = s.sluice := rfl
@[simp] theorem State.modStrip_ctxs (k : Strip) (f : StripState → StripState) : (s.modStrip k f).ctxs = s.ctxs := rfl
@[simp] theorem State.modStrip_units (k : Strip) (f : StripState → StripState) : (s.modStrip k f).units = s.units := rfl
@[simp] theorem State.modStrip_net (k : Strip) (f : StripState → StripState) : (s.modStrip k f).net = s.net := rfl
@[simp] theorem State.modStrip_banks (k : Strip) (f : StripState → StripState) : (s.modStrip k f).banks = s.banks := rfl
@[simp] theorem State.modStrip_pool (k : Strip) (f : StripState → StripState) : (s.modStrip k f).pool = s.pool := rfl
@[simp] theorem State.modStrip_eddy (k : Strip) (f : StripState → StripState) : (s.modStrip k f).eddy = s.eddy := rfl
@[simp] theorem State.modStrip_poison (k : Strip) (f : StripState → StripState) : (s.modStrip k f).poison = s.poison := rfl
@[simp] theorem State.modStrip_weir (k : Strip) (f : StripState → StripState) : (s.modStrip k f).weir = s.weir := rfl
@[simp] theorem State.modStrip_mea (k : Strip) (f : StripState → StripState) : (s.modStrip k f).mea = s.mea := rfl
@[simp] theorem State.modStrip_ring (k : Strip) (f : StripState → StripState) : (s.modStrip k f).ring = s.ring := rfl
@[simp] theorem State.modStrip_ptp (k : Strip) (f : StripState → StripState) : (s.modStrip k f).ptp = s.ptp := rfl
@[simp] theorem State.modStrip_mill (k : Strip) (f : StripState → StripState) : (s.modStrip k f).mill = s.mill := rfl
@[simp] theorem State.modStrip_gauge (k : Strip) (f : StripState → StripState) : (s.modStrip k f).gauge = s.gauge := rfl
@[simp] theorem State.modStrip_faults (k : Strip) (f : StripState → StripState) : (s.modStrip k f).faults = s.faults := rfl
@[simp] theorem State.modStrip_find (k : Strip) (f : StripState → StripState) : (s.modStrip k f).find = s.find := rfl

/-! ### `modInlet` -/

@[simp] theorem State.modInlet_pending (k : Strip) (f : Inlet → Inlet) : (s.modInlet k f).pending = s.pending := rfl
@[simp] theorem State.modInlet_free (k : Strip) (f : Inlet → Inlet) : (s.modInlet k f).free = s.free := rfl
@[simp] theorem State.modInlet_time (k : Strip) (f : Inlet → Inlet) : (s.modInlet k f).time = s.time := rfl
@[simp] theorem State.modInlet_power (k : Strip) (f : Inlet → Inlet) : (s.modInlet k f).power = s.power := rfl
@[simp] theorem State.modInlet_code (k : Strip) (f : Inlet → Inlet) : (s.modInlet k f).code = s.code := rfl
@[simp] theorem State.modInlet_lock (k : Strip) (f : Inlet → Inlet) : (s.modInlet k f).lock = s.lock := rfl
@[simp] theorem State.modInlet_ks (k : Strip) (f : Inlet → Inlet) : (s.modInlet k f).ks = s.ks := rfl
@[simp] theorem State.modInlet_modes (k : Strip) (f : Inlet → Inlet) : (s.modInlet k f).modes = s.modes := rfl
@[simp] theorem State.modInlet_ct (k : Strip) (f : Inlet → Inlet) : (s.modInlet k f).ct = s.ct := rfl
@[simp] theorem State.modInlet_sluice (k : Strip) (f : Inlet → Inlet) : (s.modInlet k f).sluice = s.sluice := rfl
@[simp] theorem State.modInlet_ctxs (k : Strip) (f : Inlet → Inlet) : (s.modInlet k f).ctxs = s.ctxs := rfl
@[simp] theorem State.modInlet_units (k : Strip) (f : Inlet → Inlet) : (s.modInlet k f).units = s.units := rfl
@[simp] theorem State.modInlet_net (k : Strip) (f : Inlet → Inlet) : (s.modInlet k f).net = s.net := rfl
@[simp] theorem State.modInlet_banks (k : Strip) (f : Inlet → Inlet) : (s.modInlet k f).banks = s.banks := rfl
@[simp] theorem State.modInlet_pool (k : Strip) (f : Inlet → Inlet) : (s.modInlet k f).pool = s.pool := rfl
@[simp] theorem State.modInlet_eddy (k : Strip) (f : Inlet → Inlet) : (s.modInlet k f).eddy = s.eddy := rfl
@[simp] theorem State.modInlet_poison (k : Strip) (f : Inlet → Inlet) : (s.modInlet k f).poison = s.poison := rfl
@[simp] theorem State.modInlet_weir (k : Strip) (f : Inlet → Inlet) : (s.modInlet k f).weir = s.weir := rfl
@[simp] theorem State.modInlet_mea (k : Strip) (f : Inlet → Inlet) : (s.modInlet k f).mea = s.mea := rfl
@[simp] theorem State.modInlet_ring (k : Strip) (f : Inlet → Inlet) : (s.modInlet k f).ring = s.ring := rfl
@[simp] theorem State.modInlet_ptp (k : Strip) (f : Inlet → Inlet) : (s.modInlet k f).ptp = s.ptp := rfl
@[simp] theorem State.modInlet_mill (k : Strip) (f : Inlet → Inlet) : (s.modInlet k f).mill = s.mill := rfl
@[simp] theorem State.modInlet_gauge (k : Strip) (f : Inlet → Inlet) : (s.modInlet k f).gauge = s.gauge := rfl
@[simp] theorem State.modInlet_faults (k : Strip) (f : Inlet → Inlet) : (s.modInlet k f).faults = s.faults := rfl
@[simp] theorem State.modInlet_find (k : Strip) (f : Inlet → Inlet) : (s.modInlet k f).find = s.find := rfl

/-! ### `modOutlet` -/

@[simp] theorem State.modOutlet_pending (k : Strip) (f : Outlet → Outlet) : (s.modOutlet k f).pending = s.pending := rfl
@[simp] theorem State.modOutlet_free (k : Strip) (f : Outlet → Outlet) : (s.modOutlet k f).free = s.free := rfl
@[simp] theorem State.modOutlet_time (k : Strip) (f : Outlet → Outlet) : (s.modOutlet k f).time = s.time := rfl
@[simp] theorem State.modOutlet_power (k : Strip) (f : Outlet → Outlet) : (s.modOutlet k f).power = s.power := rfl
@[simp] theorem State.modOutlet_code (k : Strip) (f : Outlet → Outlet) : (s.modOutlet k f).code = s.code := rfl
@[simp] theorem State.modOutlet_lock (k : Strip) (f : Outlet → Outlet) : (s.modOutlet k f).lock = s.lock := rfl
@[simp] theorem State.modOutlet_ks (k : Strip) (f : Outlet → Outlet) : (s.modOutlet k f).ks = s.ks := rfl
@[simp] theorem State.modOutlet_modes (k : Strip) (f : Outlet → Outlet) : (s.modOutlet k f).modes = s.modes := rfl
@[simp] theorem State.modOutlet_ct (k : Strip) (f : Outlet → Outlet) : (s.modOutlet k f).ct = s.ct := rfl
@[simp] theorem State.modOutlet_sluice (k : Strip) (f : Outlet → Outlet) : (s.modOutlet k f).sluice = s.sluice := rfl
@[simp] theorem State.modOutlet_ctxs (k : Strip) (f : Outlet → Outlet) : (s.modOutlet k f).ctxs = s.ctxs := rfl
@[simp] theorem State.modOutlet_units (k : Strip) (f : Outlet → Outlet) : (s.modOutlet k f).units = s.units := rfl
@[simp] theorem State.modOutlet_net (k : Strip) (f : Outlet → Outlet) : (s.modOutlet k f).net = s.net := rfl
@[simp] theorem State.modOutlet_banks (k : Strip) (f : Outlet → Outlet) : (s.modOutlet k f).banks = s.banks := rfl
@[simp] theorem State.modOutlet_pool (k : Strip) (f : Outlet → Outlet) : (s.modOutlet k f).pool = s.pool := rfl
@[simp] theorem State.modOutlet_eddy (k : Strip) (f : Outlet → Outlet) : (s.modOutlet k f).eddy = s.eddy := rfl
@[simp] theorem State.modOutlet_poison (k : Strip) (f : Outlet → Outlet) : (s.modOutlet k f).poison = s.poison := rfl
@[simp] theorem State.modOutlet_weir (k : Strip) (f : Outlet → Outlet) : (s.modOutlet k f).weir = s.weir := rfl
@[simp] theorem State.modOutlet_mea (k : Strip) (f : Outlet → Outlet) : (s.modOutlet k f).mea = s.mea := rfl
@[simp] theorem State.modOutlet_ring (k : Strip) (f : Outlet → Outlet) : (s.modOutlet k f).ring = s.ring := rfl
@[simp] theorem State.modOutlet_ptp (k : Strip) (f : Outlet → Outlet) : (s.modOutlet k f).ptp = s.ptp := rfl
@[simp] theorem State.modOutlet_mill (k : Strip) (f : Outlet → Outlet) : (s.modOutlet k f).mill = s.mill := rfl
@[simp] theorem State.modOutlet_gauge (k : Strip) (f : Outlet → Outlet) : (s.modOutlet k f).gauge = s.gauge := rfl
@[simp] theorem State.modOutlet_faults (k : Strip) (f : Outlet → Outlet) : (s.modOutlet k f).faults = s.faults := rfl
@[simp] theorem State.modOutlet_find (k : Strip) (f : Outlet → Outlet) : (s.modOutlet k f).find = s.find := rfl

/-! ### `modBank` -/

@[simp] theorem State.modBank_pending (b : BankId) (f : Bank → Bank) : (s.modBank b f).pending = s.pending := rfl
@[simp] theorem State.modBank_free (b : BankId) (f : Bank → Bank) : (s.modBank b f).free = s.free := rfl
@[simp] theorem State.modBank_time (b : BankId) (f : Bank → Bank) : (s.modBank b f).time = s.time := rfl
@[simp] theorem State.modBank_power (b : BankId) (f : Bank → Bank) : (s.modBank b f).power = s.power := rfl
@[simp] theorem State.modBank_code (b : BankId) (f : Bank → Bank) : (s.modBank b f).code = s.code := rfl
@[simp] theorem State.modBank_lock (b : BankId) (f : Bank → Bank) : (s.modBank b f).lock = s.lock := rfl
@[simp] theorem State.modBank_ks (b : BankId) (f : Bank → Bank) : (s.modBank b f).ks = s.ks := rfl
@[simp] theorem State.modBank_modes (b : BankId) (f : Bank → Bank) : (s.modBank b f).modes = s.modes := rfl
@[simp] theorem State.modBank_ct (b : BankId) (f : Bank → Bank) : (s.modBank b f).ct = s.ct := rfl
@[simp] theorem State.modBank_braid (b : BankId) (f : Bank → Bank) : (s.modBank b f).braid = s.braid := rfl
@[simp] theorem State.modBank_sluice (b : BankId) (f : Bank → Bank) : (s.modBank b f).sluice = s.sluice := rfl
@[simp] theorem State.modBank_ctxs (b : BankId) (f : Bank → Bank) : (s.modBank b f).ctxs = s.ctxs := rfl
@[simp] theorem State.modBank_units (b : BankId) (f : Bank → Bank) : (s.modBank b f).units = s.units := rfl
@[simp] theorem State.modBank_net (b : BankId) (f : Bank → Bank) : (s.modBank b f).net = s.net := rfl
@[simp] theorem State.modBank_pool (b : BankId) (f : Bank → Bank) : (s.modBank b f).pool = s.pool := rfl
@[simp] theorem State.modBank_eddy (b : BankId) (f : Bank → Bank) : (s.modBank b f).eddy = s.eddy := rfl
@[simp] theorem State.modBank_poison (b : BankId) (f : Bank → Bank) : (s.modBank b f).poison = s.poison := rfl
@[simp] theorem State.modBank_weir (b : BankId) (f : Bank → Bank) : (s.modBank b f).weir = s.weir := rfl
@[simp] theorem State.modBank_mea (b : BankId) (f : Bank → Bank) : (s.modBank b f).mea = s.mea := rfl
@[simp] theorem State.modBank_ring (b : BankId) (f : Bank → Bank) : (s.modBank b f).ring = s.ring := rfl
@[simp] theorem State.modBank_ptp (b : BankId) (f : Bank → Bank) : (s.modBank b f).ptp = s.ptp := rfl
@[simp] theorem State.modBank_mill (b : BankId) (f : Bank → Bank) : (s.modBank b f).mill = s.mill := rfl
@[simp] theorem State.modBank_gauge (b : BankId) (f : Bank → Bank) : (s.modBank b f).gauge = s.gauge := rfl
@[simp] theorem State.modBank_faults (b : BankId) (f : Bank → Bank) : (s.modBank b f).faults = s.faults := rfl
@[simp] theorem State.modBank_find (b : BankId) (f : Bank → Bank) : (s.modBank b f).find = s.find := rfl

/-! ### `modChan` -/

@[simp] theorem State.modChan_pending (ch : Chan) (f : Channel → Channel) : (s.modChan ch f).pending = s.pending := rfl
@[simp] theorem State.modChan_free (ch : Chan) (f : Channel → Channel) : (s.modChan ch f).free = s.free := rfl
@[simp] theorem State.modChan_time (ch : Chan) (f : Channel → Channel) : (s.modChan ch f).time = s.time := rfl
@[simp] theorem State.modChan_power (ch : Chan) (f : Channel → Channel) : (s.modChan ch f).power = s.power := rfl
@[simp] theorem State.modChan_code (ch : Chan) (f : Channel → Channel) : (s.modChan ch f).code = s.code := rfl
@[simp] theorem State.modChan_lock (ch : Chan) (f : Channel → Channel) : (s.modChan ch f).lock = s.lock := rfl
@[simp] theorem State.modChan_ks (ch : Chan) (f : Channel → Channel) : (s.modChan ch f).ks = s.ks := rfl
@[simp] theorem State.modChan_modes (ch : Chan) (f : Channel → Channel) : (s.modChan ch f).modes = s.modes := rfl
@[simp] theorem State.modChan_braid (ch : Chan) (f : Channel → Channel) : (s.modChan ch f).braid = s.braid := rfl
@[simp] theorem State.modChan_sluice (ch : Chan) (f : Channel → Channel) : (s.modChan ch f).sluice = s.sluice := rfl
@[simp] theorem State.modChan_ctxs (ch : Chan) (f : Channel → Channel) : (s.modChan ch f).ctxs = s.ctxs := rfl
@[simp] theorem State.modChan_units (ch : Chan) (f : Channel → Channel) : (s.modChan ch f).units = s.units := rfl
@[simp] theorem State.modChan_net (ch : Chan) (f : Channel → Channel) : (s.modChan ch f).net = s.net := rfl
@[simp] theorem State.modChan_banks (ch : Chan) (f : Channel → Channel) : (s.modChan ch f).banks = s.banks := rfl
@[simp] theorem State.modChan_pool (ch : Chan) (f : Channel → Channel) : (s.modChan ch f).pool = s.pool := rfl
@[simp] theorem State.modChan_eddy (ch : Chan) (f : Channel → Channel) : (s.modChan ch f).eddy = s.eddy := rfl
@[simp] theorem State.modChan_poison (ch : Chan) (f : Channel → Channel) : (s.modChan ch f).poison = s.poison := rfl
@[simp] theorem State.modChan_weir (ch : Chan) (f : Channel → Channel) : (s.modChan ch f).weir = s.weir := rfl
@[simp] theorem State.modChan_mea (ch : Chan) (f : Channel → Channel) : (s.modChan ch f).mea = s.mea := rfl
@[simp] theorem State.modChan_ring (ch : Chan) (f : Channel → Channel) : (s.modChan ch f).ring = s.ring := rfl
@[simp] theorem State.modChan_ptp (ch : Chan) (f : Channel → Channel) : (s.modChan ch f).ptp = s.ptp := rfl
@[simp] theorem State.modChan_mill (ch : Chan) (f : Channel → Channel) : (s.modChan ch f).mill = s.mill := rfl
@[simp] theorem State.modChan_gauge (ch : Chan) (f : Channel → Channel) : (s.modChan ch f).gauge = s.gauge := rfl
@[simp] theorem State.modChan_faults (ch : Chan) (f : Channel → Channel) : (s.modChan ch f).faults = s.faults := rfl
@[simp] theorem State.modChan_find (ch : Chan) (f : Channel → Channel) : (s.modChan ch f).find = s.find := rfl

/-! ### `modRegion` -/

@[simp] theorem State.modRegion_pending (r : Region) (f : RegionSt → RegionSt) : (s.modRegion r f).pending = s.pending := rfl
@[simp] theorem State.modRegion_free (r : Region) (f : RegionSt → RegionSt) : (s.modRegion r f).free = s.free := rfl
@[simp] theorem State.modRegion_time (r : Region) (f : RegionSt → RegionSt) : (s.modRegion r f).time = s.time := rfl
@[simp] theorem State.modRegion_power (r : Region) (f : RegionSt → RegionSt) : (s.modRegion r f).power = s.power := rfl
@[simp] theorem State.modRegion_code (r : Region) (f : RegionSt → RegionSt) : (s.modRegion r f).code = s.code := rfl
@[simp] theorem State.modRegion_lock (r : Region) (f : RegionSt → RegionSt) : (s.modRegion r f).lock = s.lock := rfl
@[simp] theorem State.modRegion_ks (r : Region) (f : RegionSt → RegionSt) : (s.modRegion r f).ks = s.ks := rfl
@[simp] theorem State.modRegion_modes (r : Region) (f : RegionSt → RegionSt) : (s.modRegion r f).modes = s.modes := rfl
@[simp] theorem State.modRegion_ct (r : Region) (f : RegionSt → RegionSt) : (s.modRegion r f).ct = s.ct := rfl
@[simp] theorem State.modRegion_braid (r : Region) (f : RegionSt → RegionSt) : (s.modRegion r f).braid = s.braid := rfl
@[simp] theorem State.modRegion_sluice (r : Region) (f : RegionSt → RegionSt) : (s.modRegion r f).sluice = s.sluice := rfl
@[simp] theorem State.modRegion_ctxs (r : Region) (f : RegionSt → RegionSt) : (s.modRegion r f).ctxs = s.ctxs := rfl
@[simp] theorem State.modRegion_units (r : Region) (f : RegionSt → RegionSt) : (s.modRegion r f).units = s.units := rfl
@[simp] theorem State.modRegion_net (r : Region) (f : RegionSt → RegionSt) : (s.modRegion r f).net = s.net := rfl
@[simp] theorem State.modRegion_banks (r : Region) (f : RegionSt → RegionSt) : (s.modRegion r f).banks = s.banks := rfl
@[simp] theorem State.modRegion_pool (r : Region) (f : RegionSt → RegionSt) : (s.modRegion r f).pool = s.pool := rfl
@[simp] theorem State.modRegion_eddy (r : Region) (f : RegionSt → RegionSt) : (s.modRegion r f).eddy = s.eddy := rfl
@[simp] theorem State.modRegion_poison (r : Region) (f : RegionSt → RegionSt) : (s.modRegion r f).poison = s.poison := rfl
@[simp] theorem State.modRegion_weir (r : Region) (f : RegionSt → RegionSt) : (s.modRegion r f).weir = s.weir := rfl
@[simp] theorem State.modRegion_ring (r : Region) (f : RegionSt → RegionSt) : (s.modRegion r f).ring = s.ring := rfl
@[simp] theorem State.modRegion_ptp (r : Region) (f : RegionSt → RegionSt) : (s.modRegion r f).ptp = s.ptp := rfl
@[simp] theorem State.modRegion_mill (r : Region) (f : RegionSt → RegionSt) : (s.modRegion r f).mill = s.mill := rfl
@[simp] theorem State.modRegion_gauge (r : Region) (f : RegionSt → RegionSt) : (s.modRegion r f).gauge = s.gauge := rfl
@[simp] theorem State.modRegion_faults (r : Region) (f : RegionSt → RegionSt) : (s.modRegion r f).faults = s.faults := rfl
@[simp] theorem State.modRegion_find (r : Region) (f : RegionSt → RegionSt) : (s.modRegion r f).find = s.find := rfl

/-! ### `modCls` -/

@[simp] theorem State.modCls_pending (q : BitVec 4) (f : WeirClass → WeirClass) : (s.modCls q f).pending = s.pending := rfl
@[simp] theorem State.modCls_free (q : BitVec 4) (f : WeirClass → WeirClass) : (s.modCls q f).free = s.free := rfl
@[simp] theorem State.modCls_time (q : BitVec 4) (f : WeirClass → WeirClass) : (s.modCls q f).time = s.time := rfl
@[simp] theorem State.modCls_power (q : BitVec 4) (f : WeirClass → WeirClass) : (s.modCls q f).power = s.power := rfl
@[simp] theorem State.modCls_code (q : BitVec 4) (f : WeirClass → WeirClass) : (s.modCls q f).code = s.code := rfl
@[simp] theorem State.modCls_lock (q : BitVec 4) (f : WeirClass → WeirClass) : (s.modCls q f).lock = s.lock := rfl
@[simp] theorem State.modCls_ks (q : BitVec 4) (f : WeirClass → WeirClass) : (s.modCls q f).ks = s.ks := rfl
@[simp] theorem State.modCls_modes (q : BitVec 4) (f : WeirClass → WeirClass) : (s.modCls q f).modes = s.modes := rfl
@[simp] theorem State.modCls_ct (q : BitVec 4) (f : WeirClass → WeirClass) : (s.modCls q f).ct = s.ct := rfl
@[simp] theorem State.modCls_braid (q : BitVec 4) (f : WeirClass → WeirClass) : (s.modCls q f).braid = s.braid := rfl
@[simp] theorem State.modCls_sluice (q : BitVec 4) (f : WeirClass → WeirClass) : (s.modCls q f).sluice = s.sluice := rfl
@[simp] theorem State.modCls_ctxs (q : BitVec 4) (f : WeirClass → WeirClass) : (s.modCls q f).ctxs = s.ctxs := rfl
@[simp] theorem State.modCls_units (q : BitVec 4) (f : WeirClass → WeirClass) : (s.modCls q f).units = s.units := rfl
@[simp] theorem State.modCls_net (q : BitVec 4) (f : WeirClass → WeirClass) : (s.modCls q f).net = s.net := rfl
@[simp] theorem State.modCls_banks (q : BitVec 4) (f : WeirClass → WeirClass) : (s.modCls q f).banks = s.banks := rfl
@[simp] theorem State.modCls_pool (q : BitVec 4) (f : WeirClass → WeirClass) : (s.modCls q f).pool = s.pool := rfl
@[simp] theorem State.modCls_eddy (q : BitVec 4) (f : WeirClass → WeirClass) : (s.modCls q f).eddy = s.eddy := rfl
@[simp] theorem State.modCls_poison (q : BitVec 4) (f : WeirClass → WeirClass) : (s.modCls q f).poison = s.poison := rfl
@[simp] theorem State.modCls_mea (q : BitVec 4) (f : WeirClass → WeirClass) : (s.modCls q f).mea = s.mea := rfl
@[simp] theorem State.modCls_ring (q : BitVec 4) (f : WeirClass → WeirClass) : (s.modCls q f).ring = s.ring := rfl
@[simp] theorem State.modCls_ptp (q : BitVec 4) (f : WeirClass → WeirClass) : (s.modCls q f).ptp = s.ptp := rfl
@[simp] theorem State.modCls_mill (q : BitVec 4) (f : WeirClass → WeirClass) : (s.modCls q f).mill = s.mill := rfl
@[simp] theorem State.modCls_gauge (q : BitVec 4) (f : WeirClass → WeirClass) : (s.modCls q f).gauge = s.gauge := rfl
@[simp] theorem State.modCls_faults (q : BitVec 4) (f : WeirClass → WeirClass) : (s.modCls q f).faults = s.faults := rfl
@[simp] theorem State.modCls_find (q : BitVec 4) (f : WeirClass → WeirClass) : (s.modCls q f).find = s.find := rfl

/-! ### `modSocket` -/

@[simp] theorem State.modSocket_pending (b : BitVec 6) (f : RingMap → RingMap) : (s.modSocket b f).pending = s.pending := rfl
@[simp] theorem State.modSocket_free (b : BitVec 6) (f : RingMap → RingMap) : (s.modSocket b f).free = s.free := rfl
@[simp] theorem State.modSocket_time (b : BitVec 6) (f : RingMap → RingMap) : (s.modSocket b f).time = s.time := rfl
@[simp] theorem State.modSocket_power (b : BitVec 6) (f : RingMap → RingMap) : (s.modSocket b f).power = s.power := rfl
@[simp] theorem State.modSocket_code (b : BitVec 6) (f : RingMap → RingMap) : (s.modSocket b f).code = s.code := rfl
@[simp] theorem State.modSocket_lock (b : BitVec 6) (f : RingMap → RingMap) : (s.modSocket b f).lock = s.lock := rfl
@[simp] theorem State.modSocket_ks (b : BitVec 6) (f : RingMap → RingMap) : (s.modSocket b f).ks = s.ks := rfl
@[simp] theorem State.modSocket_modes (b : BitVec 6) (f : RingMap → RingMap) : (s.modSocket b f).modes = s.modes := rfl
@[simp] theorem State.modSocket_ct (b : BitVec 6) (f : RingMap → RingMap) : (s.modSocket b f).ct = s.ct := rfl
@[simp] theorem State.modSocket_braid (b : BitVec 6) (f : RingMap → RingMap) : (s.modSocket b f).braid = s.braid := rfl
@[simp] theorem State.modSocket_sluice (b : BitVec 6) (f : RingMap → RingMap) : (s.modSocket b f).sluice = s.sluice := rfl
@[simp] theorem State.modSocket_ctxs (b : BitVec 6) (f : RingMap → RingMap) : (s.modSocket b f).ctxs = s.ctxs := rfl
@[simp] theorem State.modSocket_units (b : BitVec 6) (f : RingMap → RingMap) : (s.modSocket b f).units = s.units := rfl
@[simp] theorem State.modSocket_net (b : BitVec 6) (f : RingMap → RingMap) : (s.modSocket b f).net = s.net := rfl
@[simp] theorem State.modSocket_banks (b : BitVec 6) (f : RingMap → RingMap) : (s.modSocket b f).banks = s.banks := rfl
@[simp] theorem State.modSocket_pool (b : BitVec 6) (f : RingMap → RingMap) : (s.modSocket b f).pool = s.pool := rfl
@[simp] theorem State.modSocket_eddy (b : BitVec 6) (f : RingMap → RingMap) : (s.modSocket b f).eddy = s.eddy := rfl
@[simp] theorem State.modSocket_poison (b : BitVec 6) (f : RingMap → RingMap) : (s.modSocket b f).poison = s.poison := rfl
@[simp] theorem State.modSocket_weir (b : BitVec 6) (f : RingMap → RingMap) : (s.modSocket b f).weir = s.weir := rfl
@[simp] theorem State.modSocket_mea (b : BitVec 6) (f : RingMap → RingMap) : (s.modSocket b f).mea = s.mea := rfl
@[simp] theorem State.modSocket_ring (b : BitVec 6) (f : RingMap → RingMap) : (s.modSocket b f).ring = s.ring := rfl
@[simp] theorem State.modSocket_ptp (b : BitVec 6) (f : RingMap → RingMap) : (s.modSocket b f).ptp = s.ptp := rfl
@[simp] theorem State.modSocket_gauge (b : BitVec 6) (f : RingMap → RingMap) : (s.modSocket b f).gauge = s.gauge := rfl
@[simp] theorem State.modSocket_faults (b : BitVec 6) (f : RingMap → RingMap) : (s.modSocket b f).faults = s.faults := rfl
@[simp] theorem State.modSocket_find (b : BitVec 6) (f : RingMap → RingMap) : (s.modSocket b f).find = s.find := rfl

/-! ### `modFind` -/

@[simp] theorem State.modFind_pending (t : Ctx) (f : TenantFind → TenantFind) : (s.modFind t f).pending = s.pending := rfl
@[simp] theorem State.modFind_free (t : Ctx) (f : TenantFind → TenantFind) : (s.modFind t f).free = s.free := rfl
@[simp] theorem State.modFind_time (t : Ctx) (f : TenantFind → TenantFind) : (s.modFind t f).time = s.time := rfl
@[simp] theorem State.modFind_power (t : Ctx) (f : TenantFind → TenantFind) : (s.modFind t f).power = s.power := rfl
@[simp] theorem State.modFind_code (t : Ctx) (f : TenantFind → TenantFind) : (s.modFind t f).code = s.code := rfl
@[simp] theorem State.modFind_lock (t : Ctx) (f : TenantFind → TenantFind) : (s.modFind t f).lock = s.lock := rfl
@[simp] theorem State.modFind_ks (t : Ctx) (f : TenantFind → TenantFind) : (s.modFind t f).ks = s.ks := rfl
@[simp] theorem State.modFind_modes (t : Ctx) (f : TenantFind → TenantFind) : (s.modFind t f).modes = s.modes := rfl
@[simp] theorem State.modFind_ct (t : Ctx) (f : TenantFind → TenantFind) : (s.modFind t f).ct = s.ct := rfl
@[simp] theorem State.modFind_braid (t : Ctx) (f : TenantFind → TenantFind) : (s.modFind t f).braid = s.braid := rfl
@[simp] theorem State.modFind_sluice (t : Ctx) (f : TenantFind → TenantFind) : (s.modFind t f).sluice = s.sluice := rfl
@[simp] theorem State.modFind_ctxs (t : Ctx) (f : TenantFind → TenantFind) : (s.modFind t f).ctxs = s.ctxs := rfl
@[simp] theorem State.modFind_units (t : Ctx) (f : TenantFind → TenantFind) : (s.modFind t f).units = s.units := rfl
@[simp] theorem State.modFind_net (t : Ctx) (f : TenantFind → TenantFind) : (s.modFind t f).net = s.net := rfl
@[simp] theorem State.modFind_banks (t : Ctx) (f : TenantFind → TenantFind) : (s.modFind t f).banks = s.banks := rfl
@[simp] theorem State.modFind_pool (t : Ctx) (f : TenantFind → TenantFind) : (s.modFind t f).pool = s.pool := rfl
@[simp] theorem State.modFind_eddy (t : Ctx) (f : TenantFind → TenantFind) : (s.modFind t f).eddy = s.eddy := rfl
@[simp] theorem State.modFind_poison (t : Ctx) (f : TenantFind → TenantFind) : (s.modFind t f).poison = s.poison := rfl
@[simp] theorem State.modFind_weir (t : Ctx) (f : TenantFind → TenantFind) : (s.modFind t f).weir = s.weir := rfl
@[simp] theorem State.modFind_mea (t : Ctx) (f : TenantFind → TenantFind) : (s.modFind t f).mea = s.mea := rfl
@[simp] theorem State.modFind_ring (t : Ctx) (f : TenantFind → TenantFind) : (s.modFind t f).ring = s.ring := rfl
@[simp] theorem State.modFind_ptp (t : Ctx) (f : TenantFind → TenantFind) : (s.modFind t f).ptp = s.ptp := rfl
@[simp] theorem State.modFind_mill (t : Ctx) (f : TenantFind → TenantFind) : (s.modFind t f).mill = s.mill := rfl
@[simp] theorem State.modFind_gauge (t : Ctx) (f : TenantFind → TenantFind) : (s.modFind t f).gauge = s.gauge := rfl
@[simp] theorem State.modFind_faults (t : Ctx) (f : TenantFind → TenantFind) : (s.modFind t f).faults = s.faults := rfl

/-! ### `modRouter` -/

@[simp] theorem State.modRouter_pending (r : RouterId) (f : Router → Router) : (s.modRouter r f).pending = s.pending := rfl
@[simp] theorem State.modRouter_free (r : RouterId) (f : Router → Router) : (s.modRouter r f).free = s.free := rfl
@[simp] theorem State.modRouter_time (r : RouterId) (f : Router → Router) : (s.modRouter r f).time = s.time := rfl
@[simp] theorem State.modRouter_power (r : RouterId) (f : Router → Router) : (s.modRouter r f).power = s.power := rfl
@[simp] theorem State.modRouter_code (r : RouterId) (f : Router → Router) : (s.modRouter r f).code = s.code := rfl
@[simp] theorem State.modRouter_lock (r : RouterId) (f : Router → Router) : (s.modRouter r f).lock = s.lock := rfl
@[simp] theorem State.modRouter_ks (r : RouterId) (f : Router → Router) : (s.modRouter r f).ks = s.ks := rfl
@[simp] theorem State.modRouter_modes (r : RouterId) (f : Router → Router) : (s.modRouter r f).modes = s.modes := rfl
@[simp] theorem State.modRouter_ct (r : RouterId) (f : Router → Router) : (s.modRouter r f).ct = s.ct := rfl
@[simp] theorem State.modRouter_braid (r : RouterId) (f : Router → Router) : (s.modRouter r f).braid = s.braid := rfl
@[simp] theorem State.modRouter_sluice (r : RouterId) (f : Router → Router) : (s.modRouter r f).sluice = s.sluice := rfl
@[simp] theorem State.modRouter_ctxs (r : RouterId) (f : Router → Router) : (s.modRouter r f).ctxs = s.ctxs := rfl
@[simp] theorem State.modRouter_units (r : RouterId) (f : Router → Router) : (s.modRouter r f).units = s.units := rfl
@[simp] theorem State.modRouter_banks (r : RouterId) (f : Router → Router) : (s.modRouter r f).banks = s.banks := rfl
@[simp] theorem State.modRouter_pool (r : RouterId) (f : Router → Router) : (s.modRouter r f).pool = s.pool := rfl
@[simp] theorem State.modRouter_eddy (r : RouterId) (f : Router → Router) : (s.modRouter r f).eddy = s.eddy := rfl
@[simp] theorem State.modRouter_poison (r : RouterId) (f : Router → Router) : (s.modRouter r f).poison = s.poison := rfl
@[simp] theorem State.modRouter_weir (r : RouterId) (f : Router → Router) : (s.modRouter r f).weir = s.weir := rfl
@[simp] theorem State.modRouter_mea (r : RouterId) (f : Router → Router) : (s.modRouter r f).mea = s.mea := rfl
@[simp] theorem State.modRouter_ring (r : RouterId) (f : Router → Router) : (s.modRouter r f).ring = s.ring := rfl
@[simp] theorem State.modRouter_ptp (r : RouterId) (f : Router → Router) : (s.modRouter r f).ptp = s.ptp := rfl
@[simp] theorem State.modRouter_mill (r : RouterId) (f : Router → Router) : (s.modRouter r f).mill = s.mill := rfl
@[simp] theorem State.modRouter_gauge (r : RouterId) (f : Router → Router) : (s.modRouter r f).gauge = s.gauge := rfl
@[simp] theorem State.modRouter_faults (r : RouterId) (f : Router → Router) : (s.modRouter r f).faults = s.faults := rfl
@[simp] theorem State.modRouter_find (r : RouterId) (f : Router → Router) : (s.modRouter r f).find = s.find := rfl

/-! ### `modNi` -/

@[simp] theorem State.modNi_pending (n : NiId) (f : NiCount → NiCount) : (s.modNi n f).pending = s.pending := rfl
@[simp] theorem State.modNi_free (n : NiId) (f : NiCount → NiCount) : (s.modNi n f).free = s.free := rfl
@[simp] theorem State.modNi_time (n : NiId) (f : NiCount → NiCount) : (s.modNi n f).time = s.time := rfl
@[simp] theorem State.modNi_power (n : NiId) (f : NiCount → NiCount) : (s.modNi n f).power = s.power := rfl
@[simp] theorem State.modNi_code (n : NiId) (f : NiCount → NiCount) : (s.modNi n f).code = s.code := rfl
@[simp] theorem State.modNi_lock (n : NiId) (f : NiCount → NiCount) : (s.modNi n f).lock = s.lock := rfl
@[simp] theorem State.modNi_ks (n : NiId) (f : NiCount → NiCount) : (s.modNi n f).ks = s.ks := rfl
@[simp] theorem State.modNi_modes (n : NiId) (f : NiCount → NiCount) : (s.modNi n f).modes = s.modes := rfl
@[simp] theorem State.modNi_ct (n : NiId) (f : NiCount → NiCount) : (s.modNi n f).ct = s.ct := rfl
@[simp] theorem State.modNi_braid (n : NiId) (f : NiCount → NiCount) : (s.modNi n f).braid = s.braid := rfl
@[simp] theorem State.modNi_sluice (n : NiId) (f : NiCount → NiCount) : (s.modNi n f).sluice = s.sluice := rfl
@[simp] theorem State.modNi_ctxs (n : NiId) (f : NiCount → NiCount) : (s.modNi n f).ctxs = s.ctxs := rfl
@[simp] theorem State.modNi_units (n : NiId) (f : NiCount → NiCount) : (s.modNi n f).units = s.units := rfl
@[simp] theorem State.modNi_banks (n : NiId) (f : NiCount → NiCount) : (s.modNi n f).banks = s.banks := rfl
@[simp] theorem State.modNi_pool (n : NiId) (f : NiCount → NiCount) : (s.modNi n f).pool = s.pool := rfl
@[simp] theorem State.modNi_eddy (n : NiId) (f : NiCount → NiCount) : (s.modNi n f).eddy = s.eddy := rfl
@[simp] theorem State.modNi_poison (n : NiId) (f : NiCount → NiCount) : (s.modNi n f).poison = s.poison := rfl
@[simp] theorem State.modNi_weir (n : NiId) (f : NiCount → NiCount) : (s.modNi n f).weir = s.weir := rfl
@[simp] theorem State.modNi_mea (n : NiId) (f : NiCount → NiCount) : (s.modNi n f).mea = s.mea := rfl
@[simp] theorem State.modNi_ring (n : NiId) (f : NiCount → NiCount) : (s.modNi n f).ring = s.ring := rfl
@[simp] theorem State.modNi_ptp (n : NiId) (f : NiCount → NiCount) : (s.modNi n f).ptp = s.ptp := rfl
@[simp] theorem State.modNi_mill (n : NiId) (f : NiCount → NiCount) : (s.modNi n f).mill = s.mill := rfl
@[simp] theorem State.modNi_gauge (n : NiId) (f : NiCount → NiCount) : (s.modNi n f).gauge = s.gauge := rfl
@[simp] theorem State.modNi_faults (n : NiId) (f : NiCount → NiCount) : (s.modNi n f).faults = s.faults := rfl
@[simp] theorem State.modNi_find (n : NiId) (f : NiCount → NiCount) : (s.modNi n f).find = s.find := rfl

/-! ### `modPort` -/

@[simp] theorem State.modPort_pending (p : Port) (f : PortSt → PortSt) : (s.modPort p f).pending = s.pending := by cases p <;> rfl
@[simp] theorem State.modPort_free (p : Port) (f : PortSt → PortSt) : (s.modPort p f).free = s.free := by cases p <;> rfl
@[simp] theorem State.modPort_time (p : Port) (f : PortSt → PortSt) : (s.modPort p f).time = s.time := by cases p <;> rfl
@[simp] theorem State.modPort_power (p : Port) (f : PortSt → PortSt) : (s.modPort p f).power = s.power := by cases p <;> rfl
@[simp] theorem State.modPort_code (p : Port) (f : PortSt → PortSt) : (s.modPort p f).code = s.code := by cases p <;> rfl
@[simp] theorem State.modPort_lock (p : Port) (f : PortSt → PortSt) : (s.modPort p f).lock = s.lock := by cases p <;> rfl
@[simp] theorem State.modPort_ks (p : Port) (f : PortSt → PortSt) : (s.modPort p f).ks = s.ks := by cases p <;> rfl
@[simp] theorem State.modPort_modes (p : Port) (f : PortSt → PortSt) : (s.modPort p f).modes = s.modes := by cases p <;> rfl
@[simp] theorem State.modPort_ct (p : Port) (f : PortSt → PortSt) : (s.modPort p f).ct = s.ct := by cases p <;> rfl
@[simp] theorem State.modPort_braid (p : Port) (f : PortSt → PortSt) : (s.modPort p f).braid = s.braid := by cases p <;> rfl
@[simp] theorem State.modPort_sluice (p : Port) (f : PortSt → PortSt) : (s.modPort p f).sluice = s.sluice := by cases p <;> rfl
@[simp] theorem State.modPort_ctxs (p : Port) (f : PortSt → PortSt) : (s.modPort p f).ctxs = s.ctxs := by cases p <;> rfl
@[simp] theorem State.modPort_units (p : Port) (f : PortSt → PortSt) : (s.modPort p f).units = s.units := by cases p <;> rfl
@[simp] theorem State.modPort_net (p : Port) (f : PortSt → PortSt) : (s.modPort p f).net = s.net := by cases p <;> rfl
@[simp] theorem State.modPort_banks (p : Port) (f : PortSt → PortSt) : (s.modPort p f).banks = s.banks := by cases p <;> rfl
@[simp] theorem State.modPort_pool (p : Port) (f : PortSt → PortSt) : (s.modPort p f).pool = s.pool := by cases p <;> rfl
@[simp] theorem State.modPort_eddy (p : Port) (f : PortSt → PortSt) : (s.modPort p f).eddy = s.eddy := by cases p <;> rfl
@[simp] theorem State.modPort_poison (p : Port) (f : PortSt → PortSt) : (s.modPort p f).poison = s.poison := by cases p <;> rfl
@[simp] theorem State.modPort_weir (p : Port) (f : PortSt → PortSt) : (s.modPort p f).weir = s.weir := by cases p <;> rfl
@[simp] theorem State.modPort_mea (p : Port) (f : PortSt → PortSt) : (s.modPort p f).mea = s.mea := by cases p <;> rfl
@[simp] theorem State.modPort_ptp (p : Port) (f : PortSt → PortSt) : (s.modPort p f).ptp = s.ptp := by cases p <;> rfl
@[simp] theorem State.modPort_mill (p : Port) (f : PortSt → PortSt) : (s.modPort p f).mill = s.mill := by cases p <;> rfl
@[simp] theorem State.modPort_gauge (p : Port) (f : PortSt → PortSt) : (s.modPort p f).gauge = s.gauge := by cases p <;> rfl
@[simp] theorem State.modPort_faults (p : Port) (f : PortSt → PortSt) : (s.modPort p f).faults = s.faults := by cases p <;> rfl
@[simp] theorem State.modPort_find (p : Port) (f : PortSt → PortSt) : (s.modPort p f).find = s.find := by cases p <;> rfl

/-! ### Reading back -/

@[simp] theorem State.setCtx_ctx (t : Ctx) (c : Context) : (s.setCtx t c).ctx t = c := by
  simp [State.setCtx, State.ctx]
@[simp] theorem State.modCtx_ctx (t : Ctx) (f : Context → Context) : (s.modCtx t f).ctx t = f (s.ctx t) := by
  simp [State.modCtx]
@[simp] theorem State.modArch_ctx (t : Ctx) (f : Arch → Arch) :
    (s.modArch t f).ctx t = { s.ctx t with arch := f (s.ctx t).arch } := by simp [State.modArch]
theorem State.setCtx_ctx_ne {t u : Ctx} (h : t ≠ u) (c : Context) : (s.setCtx t c).ctx u = s.ctx u := by
  have : t.val ≠ u.val := fun e => h (Fin.ext e)
  simp [State.setCtx, State.ctx, this]
theorem State.modCtx_ctx_ne {t u : Ctx} (h : t ≠ u) (f : Context → Context) : (s.modCtx t f).ctx u = s.ctx u :=
  s.setCtx_ctx_ne h _
@[simp] theorem State.setUnit_hunit (n : UnitId) (u : HUnit) : (s.setUnit n u).hunit n = u := by
  simp [State.setUnit, State.hunit]
@[simp] theorem State.modUnit_hunit (n : UnitId) (f : HUnit → HUnit) : (s.modUnit n f).hunit n = f (s.hunit n) := by
  simp [State.modUnit]
@[simp] theorem State.modUnit_ctx (n : UnitId) (f : HUnit → HUnit) (t : Ctx) : (s.modUnit n f).ctx t = s.ctx t := rfl
@[simp] theorem State.setCtx_hunit (t : Ctx) (c : Context) (n : UnitId) : (s.setCtx t c).hunit n = s.hunit n := rfl
@[simp] theorem State.modCtx_hunit (t : Ctx) (f : Context → Context) (n : UnitId) : (s.modCtx t f).hunit n = s.hunit n := rfl
@[simp] theorem State.modArch_hunit (t : Ctx) (f : Arch → Arch) (n : UnitId) : (s.modArch t f).hunit n = s.hunit n := rfl
@[simp] theorem State.modStrip_strip (k : Strip) (f : StripState → StripState) : (s.modStrip k f).strip k = f (s.strip k) := by
  simp [State.modStrip, State.strip]
@[simp] theorem State.modBank_bank (b : BankId) (f : Bank → Bank) : (s.modBank b f).bank b = f (s.bank b) := by
  simp [State.modBank, State.bank]
@[simp] theorem State.modChan_chan (ch : Chan) (f : Channel → Channel) : (s.modChan ch f).chan ch = f (s.chan ch) := by
  simp [State.modChan, State.chan]
@[simp] theorem State.modRegion_region (r : Region) (f : RegionSt → RegionSt) :
    (s.modRegion r f).region r = f (s.region r) := by simp [State.modRegion, State.region]
@[simp] theorem State.modPort_port (p : Port) (f : PortSt → PortSt) : (s.modPort p f).port p = f (s.port p) := by
  cases p <;> rfl
@[simp] theorem State.modPort_other (p : Port) (f : PortSt → PortSt) :
    (s.modPort p f).port (otherPort p) = s.port (otherPort p) := by cases p <;> rfl
@[simp] theorem State.modFind_tfind (t : Ctx) (f : TenantFind → TenantFind) : (s.modFind t f).tfind t = f (s.tfind t) := by
  simp [State.modFind, State.tfind]
@[simp] theorem State.modSocket_socket (b : BitVec 6) (f : RingMap → RingMap) : (s.modSocket b f).socket b = f (s.socket b) := by
  simp [State.modSocket, State.socket]
@[simp] theorem State.modCls_cls (q : BitVec 4) (f : WeirClass → WeirClass) : (s.modCls q f).cls q = f (s.cls q) := by
  simp [State.modCls, State.cls]

end Sys2Proof.Machine
end

