-- ==== Sys2Proof/Laws/Issue.lean ====
section
/-! SUPPORT. What the issue of one instruction answers: with its cause, its completion, and the place it stands in. -/

namespace Sys2Proof.Machine

/-- An instruction whose body completes leaves what `State.finish` says. -/
theorem State.issue_ok {s s1 s2 : State} {t : Ctx} {k : InstrKind} {body : State → Res Flow} {fl : Flow}
    (hi : Issues s t s1) (hp : k.plain = true ∨ OpenPlace s1 t) (hb : k.barrier = true → (s1.ctx t).spec = none)
    (h : body s1 = .ok s2 fl) : s.issue t k body = (s2.finish t fl (s1.ctx t).arch (s1.ctx t).shadow k.bar).setLimited t false := by
  have h1 : ¬((!k.plain && (s1.ctx t).branch.isSome) = true) := by
    rcases hp with hp | hp
    · simp [hp]
    · simp [hp.slot]
  have h2 : ¬((!k.plain && (s1.ctx t).atLoopEnd) = true) := by
    rcases hp with hp | hp
    · simp [hp]
    · simp [hp.loop]
  have h3 : ¬((k.barrier && (s1.ctx t).spec.isSome) = true) := by
    cases hk : k.barrier
    · simp
    · simp [hb hk]
  simp only [State.issue, hi.can, hi.fetched, h1, h2, h3, h]
  simp

/-- An instruction whose body raises a cause that undoes it leaves that cause in the state of the fetch. -/
theorem State.issue_raise {s s1 s2 : State} {t : Ctx} {k : InstrKind} {body : State → Res Flow} {r : Raise}
    (hi : Issues s t s1) (hp : k.plain = true ∨ OpenPlace s1 t) (hb : k.barrier = true → (s1.ctx t).spec = none)
    (hk : k.resumes = false) (hr : r.counted = false) (h : body s1 = .raise s2 r) : s.issue t k body = s1.cause t r := by
  have h1 : ¬((!k.plain && (s1.ctx t).branch.isSome) = true) := by
    rcases hp with hp | hp
    · simp [hp]
    · simp [hp.slot]
  have h2 : ¬((!k.plain && (s1.ctx t).atLoopEnd) = true) := by
    rcases hp with hp | hp
    · simp [hp]
    · simp [hp.loop]
  have h3 : ¬((k.barrier && (s1.ctx t).spec.isSome) = true) := by
    cases hk : k.barrier
    · simp
    · simp [hb hk]
  simp only [State.issue, hi.can, hi.fetched, h1, h2, h3, h, hk, hr]
  simp

/-- An instruction whose body raises a cause of an access, an entry or a free value keeps what that has counted. -/
theorem State.issue_counted {s s1 s2 : State} {t : Ctx} {k : InstrKind} {body : State → Res Flow} {r : Raise}
    (hi : Issues s t s1) (hp : k.plain = true ∨ OpenPlace s1 t) (hb : k.barrier = true → (s1.ctx t).spec = none)
    (hk : k.resumes = false) (hr : r.counted = true) (h : body s1 = .raise s2 r) :
    s.issue t k body = (s2.modArch t (fun _ => (s1.ctx t).arch)).cause t r := by
  have h1 : ¬((!k.plain && (s1.ctx t).branch.isSome) = true) := by
    rcases hp with hp | hp
    · simp [hp]
    · simp [hp.slot]
  have h2 : ¬((!k.plain && (s1.ctx t).atLoopEnd) = true) := by
    rcases hp with hp | hp
    · simp [hp]
    · simp [hp.loop]
  have h3 : ¬((k.barrier && (s1.ctx t).spec.isSome) = true) := by
    cases hk : k.barrier
    · simp
    · simp [hb hk]
  simp only [State.issue, hi.can, hi.fetched, h1, h2, h3, h, hk, hr]
  simp

/-- An instruction that may not issue leaves the machine as it is. -/
theorem State.issue_idle {s : State} {t : Ctx} {k : InstrKind} {body : State → Res Flow} (h : s.canIssue t = false) :
    s.issue t k body = s := by
  simp [State.issue, h]

/-- A context's completion in sequence. -/
theorem Context.sequel_slotDone (c : Context) (b : Option Shadow) (bar : Bool) :
    c.sequel.slotDone b bar = { (c.sequel.passSlot b) with time := c.time + 1, bar := bar } := by
  have ht : c.sequel.time = c.time := by
    simp only [Context.sequel]
    cases c.branch with
    | none => simp only [Context.advance]; split <;> rfl
    | some x => simp only; split <;> [rfl; (simp only [Context.advance]; split <;> rfl)]
  cases b with
  | none => simp only [Context.slotDone, Context.passSlot, ht]
  | some sh => simp only [Context.slotDone, Context.passSlot, ht]

/-- Completion in sequence. -/
theorem State.finish_seq (s2 : State) (t : Ctx) (undo : Arch) (b : Option Shadow) (bar : Bool) :
    s2.finish t .seq undo b bar
      = s2.modCtx t (fun c => { (c.sequel.passSlot b) with time := c.time + 1, bar := bar }) := by
  have e : (fun (c : Context) => (c.follow .seq undo).slotDone b bar)
      = fun c => { (c.sequel.passSlot b) with time := c.time + 1, bar := bar } := by
    funext c
    exact Context.sequel_slotDone c b bar
  exact congrArg (s2.modCtx t) e

/-- Completion with a transfer that has no delay slot. -/
theorem State.finish_jump (s2 : State) (t : Ctx) (pc : BitVec 19) (undo : Arch) (b : Option Shadow) (bar : Bool) :
    s2.finish t (.jump pc) undo b bar
      = s2.modCtx t (fun c => { (c.passSlot b) with pc := pc, time := c.time + 1, bar := bar }) := by
  have e : (fun (c : Context) => (c.follow (.jump pc) undo).slotDone b bar)
      = fun c => { (c.passSlot b) with pc := pc, time := c.time + 1, bar := bar } := by
    funext c
    cases b <;> rfl
  exact congrArg (s2.modCtx t) e

/-- Outside speculation no unit stalls at a limit of one. -/
theorem State.setLimited_none (s : State) (t : Ctx) (b : Bool) (h : (s.ctx t).spec = none) : s.setLimited t b = s := by
  have e : ({ s.ctx t with spec := (s.ctx t).spec.map (fun sp => { sp with limited := b }) } : Context) = s.ctx t := by
    rw [h, Option.map_none, ← h]
  simp only [State.setLimited, State.modCtx, e]
  simp [State.setCtx, State.ctx]

/-! ### Long ops by their group -/

/-- A plain long op whose body completes. -/
theorem State.plainOp_ok {s s1 s2 : State} {t : Ctx} {op : Nat} {k : BitVec 11} {body : State → Res Flow} (hi : Issues s t s1)
    (h : body s1 = .ok s2 .seq) : s.plainOp t op k body = s2.seqAfter s1 t false := by
  rw [State.plainOp, State.issue_ok hi (Or.inl rfl) (fun h => by cases h) h, State.finish_seq]; rfl

/-- A plain long op whose body raises a cause. -/
theorem State.plainOp_raise {s s1 s2 : State} {t : Ctx} {op : Nat} {k : BitVec 11} {body : State → Res Flow}
    {r : Raise} (hi : Issues s t s1)
    (hr : r.counted = false) (h : body s1 = .raise s2 r) : s.plainOp t op k body = s1.cause t r := by
  rw [State.plainOp, State.issue_raise hi (Or.inl rfl) (fun h => by cases h) rfl hr h]

/-- A transfer that leads to a branch. -/
theorem State.transferOp_branch {s s1 s2 : State} {t : Ctx} {op : Nat} {k : BitVec 11} {body : State → Res Flow}
    {a : BitVec 19} {b : Bool} (hi : Issues s t s1) (ho : OpenPlace s1 t)
    (h : body s1 = .ok s2 (.branch a b)) (hpc : (s2.ctx t).pc = (s1.ctx t).pc) : s.transferOp t op k body = s2.branchAfter s1 t a b := by
  rw [State.transferOp, State.issue_ok hi (Or.inr ho) (fun h => by cases h) h]
  simp only [State.finish, State.branchAfter, State.modCtx, Context.follow, Context.slotDone, Context.passSlot, hpc]
  cases (s1.ctx t).shadow <;> rfl

/-- A transfer without a delay slot. -/
theorem State.transferOp_jump {s s1 s2 : State} {t : Ctx} {op : Nat} {k : BitVec 11} {body : State → Res Flow}
    {a : BitVec 19} (hi : Issues s t s1) (ho : OpenPlace s1 t)
    (h : body s1 = .ok s2 (.jump a)) : s.transferOp t op k body = s2.jumpAfter s1 t a := by
  rw [State.transferOp, State.issue_ok hi (Or.inr ho) (fun h => by cases h) h, State.finish_jump]; rfl

/-- A transfer whose body raises a cause. -/
theorem State.transferOp_raise {s s1 s2 : State} {t : Ctx} {op : Nat} {k : BitVec 11} {body : State → Res Flow}
    {r : Raise} (hi : Issues s t s1) (ho : OpenPlace s1 t)
    (hr : r.counted = false) (h : body s1 = .raise s2 r) : s.transferOp t op k body = s1.cause t r := by
  rw [State.transferOp, State.issue_raise hi (Or.inr ho) (fun h => by cases h) rfl hr h]

/-- A system op whose body completes. -/
theorem State.systemOp_jump {s s1 s2 : State} {t : Ctx} {op : Nat} {k : BitVec 11} {body : State → Res Flow}
    {a : BitVec 19} (hi : Issues s t s1) (ho : OpenPlace s1 t)
    (hs : (s1.ctx t).spec = none)
    (h : body s1 = .ok s2 (.jump a)) : s.systemOp t op k body = s2.jumpAfter s1 t a := by
  rw [State.systemOp, State.issue_ok hi (Or.inr ho) (fun _ => hs) h, State.finish_jump]; rfl

/-- A system op whose body raises a cause. -/
theorem State.systemOp_raise {s s1 s2 : State} {t : Ctx} {op : Nat} {k : BitVec 11} {body : State → Res Flow}
    {r : Raise} (hi : Issues s t s1) (ho : OpenPlace s1 t)
    (hs : (s1.ctx t).spec = none)
    (hr : r.counted = false) (h : body s1 = .raise s2 r) : s.systemOp t op k body = s1.cause t r := by
  rw [State.systemOp, State.issue_raise hi (Or.inr ho) (fun _ => hs) rfl hr h]

/-- Two changes of the registers that agree on the registers that stand. -/
theorem State.modArch_congr {s : State} {t : Ctx} {f g : Arch → Arch} (h : f (s.ctx t).arch = g (s.ctx t).arch) :
    s.modArch t f = s.modArch t g := by
  simp only [State.modArch, State.modCtx, h]

/-- Two changes of the registers in a row. -/
theorem State.modArch_modArch (s : State) (t : Ctx) (f g : Arch → Arch) :
    (s.modArch t f).modArch t g = s.modArch t (fun a => g (f a)) := by
  simp [State.modArch, State.modCtx, State.ctx, State.setCtx]

/-! ### Pairs -/

/-- Whether a pair passes its checks does not rest on its word or on the free slot number. -/
theorem Arch.pairCheck_none {a : Arch} {ca cb : Nat} {w w' : Word} {f f' : BitVec 2} (h : a.pairCheck ca cb w f = none) :
    a.pairCheck ca cb w' f' = none := by
  simp only [Arch.pairCheck] at h ⊢
  repeat' split at h
  all_goals cases h
  all_goals simp_all

/-- A pair whose checks pass and whose ops complete is A, then B (R175). -/
theorem State.pair_ok {s s1 s2 s3 : State} {t : Ctx} {ca b : BitVec 8} {opA : State → Ctx → Res Unit} {bar : Bool}
    (hi : Issues s t s1) (hc : PairOk s1 t ca b) (ha : opA s1 t = .ok s2 ()) (hb : shortOp b.toNat s2 t = .ok s3 ()) :
    s.pair t ca opA b bar = s3.seqAfter s1 t bar := by
  have hbody : s1.pairBody t ca.toNat opA b.toNat (pairWord ca b bar) = .ok s3 .seq := by
    simp only [State.pairBody, Arch.pairCheck_none hc, ha, Res.inSlot, Res.bind, hb, Res.seq]
  simp only [State.pair]
  rw [State.issue_ok (k := { word := pairWord ca b bar, plain := true, barrier := false, bar := bar }) hi (Or.inl rfl)
    (fun h => by cases h) hbody, State.finish_seq]
  rfl

end Sys2Proof.Machine
end

