-- ==== Sys2Proof/Laws/Mem.lean ====
section
/-! SUPPORT. Sparse memory: every operation keeps its canonical form, and a read after a write gives the value written
there and what stood before everywhere else. -/

namespace Sys2Proof.Machine

variable {α : Type}

/-! ### Order of keys -/

/-- A list that rises from above `hi` rises from above any lower bound. -/
theorem Mem.sortedFrom_mono {lo hi : Nat} (h : lo ≤ hi) (m : Mem α) (hm : Mem.sortedFrom (some hi) m = true) :
    Mem.sortedFrom (some lo) m = true := by
  cases m with
  | nil => rfl
  | cons e m =>
    simp only [Mem.sortedFrom, Bool.and_eq_true, decide_eq_true_eq] at hm ⊢
    exact ⟨by omega, hm.2⟩

/-- A list that rises from above a bound rises. -/
theorem Mem.sortedFrom_none {lo : Nat} (m : Mem α) (hm : Mem.sortedFrom (some lo) m = true) :
    Mem.sortedFrom none m = true := by
  cases m with
  | nil => rfl
  | cons e m =>
    simp only [Mem.sortedFrom, Bool.and_eq_true] at hm ⊢
    exact hm.2

theorem Mem.sortedFrom_erase {lo : Nat} (m : Mem α) (k : Nat) (hm : Mem.sortedFrom (some lo) m = true) :
    Mem.sortedFrom (some lo) (Mem.erase m k) = true := by
  induction m generalizing lo with
  | nil => rfl
  | cons e m ih =>
    obtain ⟨k', v⟩ := e
    simp only [Mem.sortedFrom, Bool.and_eq_true, decide_eq_true_eq] at hm
    simp only [Mem.erase]
    split
    · exact Mem.sortedFrom_mono (by omega) m hm.2
    · simp only [Mem.sortedFrom, Bool.and_eq_true, decide_eq_true_eq]
      exact ⟨hm.1, ih hm.2⟩

theorem Mem.sortedFrom_insert {lo : Nat} (m : Mem α) (k : Nat) (v : α) (hk : lo < k)
    (hm : Mem.sortedFrom (some lo) m = true) : Mem.sortedFrom (some lo) (Mem.insert k v m) = true := by
  induction m generalizing lo with
  | nil => simp [Mem.insert, Mem.sortedFrom, hk]
  | cons e m ih =>
    obtain ⟨k', v'⟩ := e
    simp only [Mem.sortedFrom, Bool.and_eq_true, decide_eq_true_eq] at hm
    simp only [Mem.insert]
    split
    · simp only [Mem.sortedFrom, Bool.and_eq_true, decide_eq_true_eq]
      exact ⟨hk, by omega, hm.2⟩
    · split
      · subst k'
        simp only [Mem.sortedFrom, Bool.and_eq_true, decide_eq_true_eq]
        exact ⟨hk, hm.2⟩
      · simp only [Mem.sortedFrom, Bool.and_eq_true, decide_eq_true_eq]
        exact ⟨hm.1, ih (by omega) hm.2⟩

theorem Mem.sorted_erase (m : Mem α) (k : Nat) (hm : Mem.sortedFrom none m = true) :
    Mem.sortedFrom none (Mem.erase m k) = true := by
  cases m with
  | nil => rfl
  | cons e m =>
    obtain ⟨k', v⟩ := e
    simp only [Mem.sortedFrom] at hm
    simp only [Mem.erase]
    split
    · exact Mem.sortedFrom_none m hm
    · simp only [Mem.sortedFrom]
      exact Mem.sortedFrom_erase m k hm

theorem Mem.sorted_insert (m : Mem α) (k : Nat) (v : α) (hm : Mem.sortedFrom none m = true) :
    Mem.sortedFrom none (Mem.insert k v m) = true := by
  cases m with
  | nil => rfl
  | cons e m =>
    obtain ⟨k', v'⟩ := e
    simp only [Mem.sortedFrom] at hm
    simp only [Mem.insert]
    split
    · simp only [Mem.sortedFrom, Bool.and_eq_true, decide_eq_true_eq]
      exact ⟨by omega, hm⟩
    · split
      · subst k'
        simp only [Mem.sortedFrom]
        exact hm
      · simp only [Mem.sortedFrom]
        exact Mem.sortedFrom_insert m k v (by omega) hm

/-! ### Entries -/

theorem Mem.all_erase (m : Mem α) (k : Nat) (p : Nat × α → Bool) (h : m.all p = true) : (Mem.erase m k).all p = true := by
  induction m with
  | nil => rfl
  | cons e m ih =>
    obtain ⟨k', v⟩ := e
    simp only [List.all_cons, Bool.and_eq_true] at h
    simp only [Mem.erase]
    split
    · exact h.2
    · simp only [List.all_cons, Bool.and_eq_true]
      exact ⟨h.1, ih h.2⟩

theorem Mem.all_insert (m : Mem α) (k : Nat) (v : α) (p : Nat × α → Bool) (hv : p (k, v) = true) (h : m.all p = true) :
    (Mem.insert k v m).all p = true := by
  induction m with
  | nil => simp [Mem.insert, hv]
  | cons e m ih =>
    obtain ⟨k', v'⟩ := e
    simp only [List.all_cons, Bool.and_eq_true] at h
    simp only [Mem.insert]
    split
    · simp only [List.all_cons, Bool.and_eq_true]
      exact ⟨hv, h⟩
    · split
      · simp only [List.all_cons, Bool.and_eq_true]
        exact ⟨hv, h.2⟩
      · simp only [List.all_cons, Bool.and_eq_true]
        exact ⟨h.1, ih h.2⟩

/-! ### The canonical form -/

variable [DecidableEq α]

/-- The empty memory is canonical. -/
@[simp] theorem Mem.wf_nil (d : α) : Mem.wf d ([] : Mem α) = true := rfl

/-- A write keeps the canonical form. -/
theorem Mem.wf_set (d : α) (m : Mem α) (k : Nat) (v : α) (h : Mem.wf d m = true) : Mem.wf d (Mem.set d m k v) = true := by
  simp only [Mem.wf, Bool.and_eq_true] at h
  simp only [Mem.set]
  split
  · simp only [Mem.wf, Bool.and_eq_true]
    exact ⟨Mem.sorted_erase m k h.1, Mem.all_erase m k _ h.2⟩
  · rename_i hv
    simp only [Mem.wf, Bool.and_eq_true]
    exact ⟨Mem.sorted_insert m k v h.1, Mem.all_insert m k v _ (by simpa using hv) h.2⟩

/-! ### Read after write -/

omit [DecidableEq α] in
/-- Below every listed key nothing is listed. -/
theorem Mem.get_below (d : α) (m : Mem α) (k lo : Nat) (hm : Mem.sortedFrom (some lo) m = true) (hk : k ≤ lo) :
    Mem.get d m k = d := by
  induction m generalizing lo with
  | nil => rfl
  | cons e m ih =>
    obtain ⟨k', v⟩ := e
    simp only [Mem.sortedFrom, Bool.and_eq_true, decide_eq_true_eq] at hm
    simp only [Mem.get]
    split
    · omega
    · exact ih k' hm.2 (by omega)

omit [DecidableEq α] in
theorem Mem.get_insert (d : α) (m : Mem α) (k j : Nat) (v : α) :
    Mem.get d (Mem.insert k v m) j = if j = k then v else Mem.get d m j := by
  induction m with
  | nil =>
    by_cases h : j = k
    · simp [Mem.insert, Mem.get, h]
    · simp [Mem.insert, Mem.get, h, Ne.symm h]
  | cons e m ih =>
    obtain ⟨k', v'⟩ := e
    by_cases h : j = k
    · subst h
      simp only [Mem.insert]
      split
      · simp [Mem.get]
      · split
        · simp [Mem.get]
        · simp only [Mem.get, ih]
          split
          · omega
          · rfl
    · simp only [Mem.insert]
      split
      · simp [Mem.get, h, Ne.symm h]
      · split
        · subst k'
          simp [Mem.get, h, Ne.symm h]
        · simp only [Mem.get, ih, if_neg h]

omit [DecidableEq α] in
theorem Mem.get_erase (d : α) (m : Mem α) (k j : Nat) (hm : Mem.sortedFrom none m = true) :
    Mem.get d (Mem.erase m k) j = if j = k then d else Mem.get d m j := by
  induction m with
  | nil => simp [Mem.erase, Mem.get]
  | cons e m ih =>
    obtain ⟨k', v⟩ := e
    simp only [Mem.sortedFrom] at hm
    simp only [Mem.erase]
    split
    · subst k'
      simp only [Mem.get]
      split
      · subst j
        exact Mem.get_below d m k k hm (Nat.le_refl k)
      · split
        · omega
        · rfl
    · simp only [Mem.get, ih (Mem.sortedFrom_none m hm)]
      split
      · split
        · omega
        · rfl
      · rfl

/-- A read after a write: the value written there, and what stood before elsewhere. -/
theorem Mem.get_set (d : α) (m : Mem α) (k j : Nat) (v : α) (hm : Mem.wf d m = true) :
    Mem.get d (Mem.set d m k v) j = if j = k then v else Mem.get d m j := by
  simp only [Mem.wf, Bool.and_eq_true] at hm
  simp only [Mem.set]
  split
  · subst v
    exact Mem.get_erase d m k j hm.1
  · exact Mem.get_insert d m k j v

end Sys2Proof.Machine
end

