-- ==== Sys2Proof/Laws/Kept.lean ====
section
/-! SUPPORT. What every operation keeps, as one relation between a state and a later one: the queue of commands, the
canonical form of Pool and Eddy, the one-way counters of the Lock and the enrolments. The files under Laws/Kept give one
lemma per operation. -/

namespace Sys2Proof.Machine

/-- From `a` to `b` the queue stands, Pool and Eddy stay canonical, and no fuse of the Lock goes back. -/
structure Kept (a b : State) : Prop where
  queue : b.pending = a.pending
  pool : Mem.wf 0 a.pool = true → Mem.wf 0 b.pool = true
  eddy : Mem.wf 0 a.eddy = true → Mem.wf 0 b.eddy = true
  charterCtr : a.lock.charterCtr ≤ b.lock.charterCtr
  patchCtr : a.lock.patchCtr ≤ b.lock.patchCtr
  banks : a.lock.banks <+: b.lock.banks

theorem Kept.refl (s : State) : Kept s s :=
  ⟨rfl, id, id, BitVec.le_refl _, BitVec.le_refl _, List.prefix_refl _⟩

theorem Kept.trans {a b c : State} (h : Kept a b) (g : Kept b c) : Kept a c :=
  ⟨g.1.trans h.1, g.2 ∘ h.2, g.3 ∘ h.3, BitVec.le_trans h.4 g.4, BitVec.le_trans h.5 g.5, h.6.trans g.6⟩

variable {z s t : State}

/-- A record update of other fields, or of the Lock apart from its fuses. -/
theorem Kept.upd (h : Kept z s) {f1 f2 f3 f4 f6 f7 f8 f9 f10 f11 f12 f13 f14 f17 f18 f19 f20 f21 f22 f23 f24 f25}
    {l : Lock} (h1 : l.charterCtr = s.lock.charterCtr) (h2 : l.patchCtr = s.lock.patchCtr)
    (h3 : l.banks = s.lock.banks) :
    Kept z (State.mk s.pending f1 f2 f3 f4 l f6 f7 f8 f9 f10 f11 f12 f13 f14 s.pool s.eddy f17 f18 f19 f20 f21 f22 f23
      f24 f25) :=
  ⟨h.1, h.2, h.3, h1 ▸ h.4, h2 ▸ h.5, h3 ▸ h.6⟩

theorem Kept.ident (h : Kept z s) : Kept z (id s) := h

theorem Kept.ite {c : Prop} [Decidable c] (h : Kept z s) (g : Kept z t) : Kept z (if c then s else t) := by
  split <;> assumption

theorem Kept.foldl {α : Type} {f : State → α → State} {l : List α} (hf : ∀ s x, Kept z s → Kept z (f s x))
    (h : Kept z s) : Kept z (l.foldl f s) := by
  induction l generalizing s with
  | nil => exact h
  | cons x l ih => exact ih (hf _ _ h)

theorem Kept.cast {s t : State} (h : Kept z s) (e : s = t) : Kept z t := e ▸ h
theorem Kept.of_fst {α : Type} {p : State × α} {v : α} (e : p = (s, v)) (h : Kept z p.1) : Kept z s := by
  subst e; exact h
theorem Kept.of_snd {α : Type} {p : α × State} {v : α} (e : p = (v, s)) (h : Kept z p.2) : Kept z s := by
  subst e; exact h

/-- The state of an optional outcome, if there is one. -/
inductive OptKept (z : State) : Option State → Prop
  | some {s : State} (h : Kept z s) : OptKept z (some s)
  | none : OptKept z none

theorem OptKept.ite {o p : Option State} {c : Prop} [Decidable c] (h : OptKept z o) (g : OptKept z p) :
    OptKept z (if c then o else p) := by
  split <;> assumption
theorem Kept.of_some {o : Option State} (e : o = Option.some s) (h : OptKept z o) : Kept z s := by
  subst e; cases h; assumption

/-- Every outcome of a piece of an instruction. -/
inductive ResKept {α : Type} (z : State) : Res α → Prop
  | ok {s : State} {v : α} (h : Kept z s) : ResKept z (.ok s v)
  | raise {s : State} {r : Raise} (h : Kept z s) : ResKept z (.raise s r)
  | stall {s : State} (h : Kept z s) : ResKept z (.stall s)

section Res
variable {α β : Type} {x y : Res α}

theorem ResKept.ite {c : Prop} [Decidable c] (h : ResKept z x) (g : ResKept z y) :
    ResKept z (if c then x else y) := by
  split <;> assumption
theorem ResKept.bind {f : State → α → Res β} (h : ResKept z x) (hf : ∀ s v, Kept z s → ResKept z (f s v)) :
    ResKept z (x.bind f) := by
  cases h with
  | ok h => exact hf _ _ h
  | raise h => exact .raise h
  | stall h => exact .stall h
theorem Kept.of_ok {v : α} (e : x = .ok s v) (h : ResKept z x) : Kept z s := by
  subst e; cases h; assumption
theorem Kept.of_raise {r : Raise} (e : x = .raise s r) (h : ResKept z x) : Kept z s := by
  subst e; cases h; assumption
theorem Kept.of_stall (e : x = .stall s) (h : ResKept z x) : Kept z s := by
  subst e; cases h; assumption

end Res

/-- What the sequencer of a strand op has done. -/
inductive TickKept (z : State) : Tick → Prop
  | over {s : State} (h : Kept z s) : TickKept z (.over s)
  | go {s : State} {o : StrandOp} (h : Kept z s) : TickKept z (.go s o)
  | call {s : State} {o : StrandOp} (h : Kept z s) : TickKept z (.call s o)

theorem TickKept.ite {x y : Tick} {c : Prop} [Decidable c] (h : TickKept z x) (g : TickKept z y) :
    TickKept z (if c then x else y) := by
  split <;> assumption
theorem Kept.of_over {x : Tick} (e : x = .over s) (h : TickKept z x) : Kept z s := by
  subst e; cases h; assumption
theorem Kept.of_go {x : Tick} {o : StrandOp} (e : x = .go s o) (h : TickKept z x) : Kept z s := by
  subst e; cases h; assumption
theorem Kept.of_call {x : Tick} {o : StrandOp} (e : x = .call s o) (h : TickKept z x) : Kept z s := by
  subst e; cases h; assumption

/-- The outcome of a command. -/
inductive OutKept (z : State) : Out → Prop
  | next {s : State} (h : Kept z s) : OutKept z (Host.Outcome.next s)
  | fault {r : Fault} : OutKept z (Host.Outcome.fault r)
  | refused {r : Refusal} : OutKept z (Host.Outcome.refused r)

theorem OutKept.ite {x y : Out} {c : Prop} [Decidable c] (h : OutKept z x) (g : OutKept z y) :
    OutKept z (if c then x else y) := by
  split <;> assumption

/-- The outcome of a register write. -/
inductive WriteKept (z : State) : WriteOut → Prop
  | done {s : State} (h : Kept z s) : WriteKept z (WriteOut.done s)
  | refused : WriteKept z WriteOut.refused
  | cause {r : Raise} : WriteKept z (WriteOut.cause r)

theorem WriteKept.ite {x y : WriteOut} {c : Prop} [Decidable c] (h : WriteKept z x) (g : WriteKept z y) :
    WriteKept z (if c then x else y) := by
  split <;> assumption
theorem Kept.of_done {w : WriteOut} (e : w = .done s) (h : WriteKept z w) : Kept z s := by
  subst e; cases h; assumption

end Sys2Proof.Machine
end

