-- ==== Sys2Proof/Laws/Kept/Ops.lean ====
section
/-! SUPPORT. What the operations of Machine/Ops.lean keep (Laws/Kept.lean). -/

namespace Sys2Proof.Machine

theorem State.setCtx_kept {z s : State} (t : Ctx) (c : Context) (hz : Kept z s) : Kept z (State.setCtx s t c) := by
  unfold State.setCtx
  repeat' (with_reducible first
    | assumption | apply Kept.ite | apply Kept.foldl | (intro _ _ _) | (intro _ _) | extract_lets | split
    | apply Kept.upd | rfl)

theorem State.modCtx_kept {z s : State} (t : Ctx) (f : Context → Context) (hz : Kept z s) : Kept z (State.modCtx s t f) := by
  unfold State.modCtx
  repeat' (with_reducible first
    | assumption | apply State.setCtx_kept)

theorem State.modArch_kept {z s : State} (t : Ctx) (f : Arch → Arch) (hz : Kept z s) : Kept z (State.modArch s t f) := by
  unfold State.modArch
  repeat' (with_reducible first
    | assumption | apply State.modCtx_kept)

theorem State.setUnit_kept {z s : State} (n : UnitId) (u : HUnit) (hz : Kept z s) : Kept z (State.setUnit s n u) := by
  unfold State.setUnit
  repeat' (with_reducible first
    | assumption | apply Kept.ite | apply Kept.foldl | (intro _ _ _) | (intro _ _) | extract_lets | split
    | apply Kept.upd | rfl)

theorem State.modUnit_kept {z s : State} (n : UnitId) (f : HUnit → HUnit) (hz : Kept z s) : Kept z (State.modUnit s n f) := by
  unfold State.modUnit
  repeat' (with_reducible first
    | assumption | apply State.setUnit_kept)

theorem State.modStrip_kept {z s : State} (k : Strip) (f : StripState → StripState) (hz : Kept z s) : Kept z (State.modStrip s k f) := by
  unfold State.modStrip
  repeat' (with_reducible first
    | assumption | apply Kept.ite | apply Kept.foldl | (intro _ _ _) | (intro _ _) | extract_lets | split
    | apply Kept.upd | rfl)

theorem State.modInlet_kept {z s : State} (k : Strip) (f : Inlet → Inlet) (hz : Kept z s) : Kept z (State.modInlet s k f) := by
  unfold State.modInlet
  repeat' (with_reducible first
    | assumption | apply State.modStrip_kept)

theorem State.modOutlet_kept {z s : State} (k : Strip) (f : Outlet → Outlet) (hz : Kept z s) : Kept z (State.modOutlet s k f) := by
  unfold State.modOutlet
  repeat' (with_reducible first
    | assumption | apply State.modStrip_kept)

theorem State.modBank_kept {z s : State} (b : BankId) (f : Bank → Bank) (hz : Kept z s) : Kept z (State.modBank s b f) := by
  unfold State.modBank
  repeat' (with_reducible first
    | assumption | apply Kept.ite | apply Kept.foldl | (intro _ _ _) | (intro _ _) | extract_lets | split
    | apply Kept.upd | rfl)

theorem State.modChan_kept {z s : State} (ch : Chan) (f : Channel → Channel) (hz : Kept z s) : Kept z (State.modChan s ch f) := by
  unfold State.modChan
  repeat' (with_reducible first
    | assumption | apply Kept.ite | apply Kept.foldl | (intro _ _ _) | (intro _ _) | extract_lets | split
    | apply Kept.upd | rfl)

theorem State.modRegion_kept {z s : State} (r : Region) (f : RegionSt → RegionSt) (hz : Kept z s) : Kept z (State.modRegion s r f) := by
  unfold State.modRegion
  repeat' (with_reducible first
    | assumption | apply Kept.ite | apply Kept.foldl | (intro _ _ _) | (intro _ _) | extract_lets | split
    | apply Kept.upd | rfl)

theorem State.modPort_kept {z s : State} (p : Port) (f : PortSt → PortSt) (hz : Kept z s) : Kept z (State.modPort s p f) := by
  unfold State.modPort
  repeat' (with_reducible first
    | assumption | apply Kept.ite | apply Kept.foldl | (intro _ _ _) | (intro _ _) | extract_lets | split
    | refine Kept.of_ok (by assumption) ?_ | refine Kept.of_raise (by assumption) ?_
    | refine Kept.of_stall (by assumption) ?_ | refine Kept.of_some (by assumption) ?_
    | refine Kept.of_done (by assumption) ?_ | refine Kept.of_fst (by assumption) ?_
    | refine Kept.of_snd (by assumption) ?_ | apply Kept.upd | rfl)

theorem State.modCls_kept {z s : State} (q : BitVec 4) (f : WeirClass → WeirClass) (hz : Kept z s) : Kept z (State.modCls s q f) := by
  unfold State.modCls
  repeat' (with_reducible first
    | assumption | apply Kept.ite | apply Kept.foldl | (intro _ _ _) | (intro _ _) | extract_lets | split
    | apply Kept.upd | rfl)

theorem State.modSocket_kept {z s : State} (b : BitVec 6) (f : RingMap → RingMap) (hz : Kept z s) : Kept z (State.modSocket s b f) := by
  unfold State.modSocket
  repeat' (with_reducible first
    | assumption | apply Kept.ite | apply Kept.foldl | (intro _ _ _) | (intro _ _) | extract_lets | split
    | apply Kept.upd | rfl)

theorem State.modFind_kept {z s : State} (t : Ctx) (f : TenantFind → TenantFind) (hz : Kept z s) : Kept z (State.modFind s t f) := by
  unfold State.modFind
  repeat' (with_reducible first
    | assumption | apply Kept.ite | apply Kept.foldl | (intro _ _ _) | (intro _ _) | extract_lets | split
    | apply Kept.upd | rfl)

theorem State.modRouter_kept {z s : State} (r : RouterId) (f : Router → Router) (hz : Kept z s) : Kept z (State.modRouter s r f) := by
  unfold State.modRouter
  repeat' (with_reducible first
    | assumption | apply Kept.ite | apply Kept.foldl | (intro _ _ _) | (intro _ _) | extract_lets | split
    | apply Kept.upd | rfl)

theorem State.modNi_kept {z s : State} (n : NiId) (f : NiCount → NiCount) (hz : Kept z s) : Kept z (State.modNi s n f) := by
  unfold State.modNi
  repeat' (with_reducible first
    | assumption | apply Kept.ite | apply Kept.foldl | (intro _ _ _) | (intro _ _) | extract_lets | split
    | apply Kept.upd | rfl)

theorem State.takeFree_kept {z s : State}  (hz : Kept z s) : Kept z (State.takeFree s).2 := by
  unfold State.takeFree
  repeat' (with_reducible first
    | assumption | apply Kept.ite | apply Kept.foldl | (intro _ _ _) | (intro _ _) | extract_lets | split
    | apply Kept.upd | rfl)

theorem State.emit_kept {z s : State} (dst : BitVec 48) (et : BitVec 16) (payload : List Byte) (event : Bool) (hz : Kept z s) : Kept z (State.emit s dst et payload event) := by
  unfold State.emit
  repeat' (with_reducible first
    | assumption | apply Kept.ite | apply Kept.foldl | (intro _ _ _) | (intro _ _) | extract_lets | split
    | apply Kept.upd | rfl)

theorem State.sendOwn_kept {z s : State} (dst : BitVec 48) (et : BitVec 16) (payload : List Byte) (event : Bool) (hz : Kept z s) : Kept z (State.sendOwn s dst et payload event) := by
  unfold State.sendOwn
  repeat' (with_reducible first
    | assumption | apply State.emit_kept | apply Kept.ite)

theorem State.sendMillrace_kept {z s : State} (dst : BitVec 48) (type : Byte) (flags : Byte) (body : List Byte) (hz : Kept z s) : Kept z (State.sendMillrace s dst type flags body) := by
  unfold State.sendMillrace
  repeat' (with_reducible first
    | assumption | apply State.sendOwn_kept)

theorem State.usePairs_kept {z s : State} (r : KsRegion) (n : Nat) (hz : Kept z s) : Kept z (State.usePairs s r n) := by
  unfold State.usePairs
  repeat' (with_reducible first
    | assumption | apply Kept.ite | apply Kept.foldl | (intro _ _ _) | (intro _ _) | extract_lets | split
    | apply Kept.upd | rfl)

theorem State.toLedger_kept {z s : State} (f : Finding) (hz : Kept z s) : Kept z (State.toLedger s f) := by
  unfold State.toLedger
  repeat' (with_reducible first
    | assumption | apply State.usePairs_kept | apply Kept.ite | apply Kept.foldl | (intro _ _ _) | (intro _ _)
    | extract_lets | split | apply Kept.upd | rfl)

theorem State.sendFinding_kept {z s : State} (f : Finding) (hz : Kept z s) : Kept z (State.sendFinding s f) := by
  unfold State.sendFinding
  repeat' (with_reducible first
    | assumption | apply State.sendMillrace_kept)

theorem State.routeFinding_kept {z s : State} (f : Finding) (hz : Kept z s) : Kept z (State.routeFinding s f) := by
  unfold State.routeFinding
  repeat' (with_reducible first
    | assumption | apply State.sendFinding_kept | apply State.toLedger_kept | apply Kept.ite | apply Kept.foldl
    | (intro _ _ _) | (intro _ _) | extract_lets | split | apply Kept.upd | rfl)

theorem State.releaseBehind_kept {z s : State} (hz : Kept z s) : Kept z (State.releaseBehind s) := by
  unfold State.releaseBehind
  repeat' (with_reducible first
    | assumption | apply State.sendFinding_kept | apply Kept.ite | apply Kept.foldl | (intro _ _ _) | (intro _ _)
    | extract_lets | split | apply Kept.upd | rfl)

theorem State.divertBehind_kept {z s : State} (hz : Kept z s) : Kept z (State.divertBehind s) := by
  unfold State.divertBehind
  repeat' (with_reducible first
    | assumption | apply State.toLedger_kept | apply Kept.ite | apply Kept.foldl | (intro _ _ _) | (intro _ _)
    | extract_lets | split | apply Kept.upd | rfl)

theorem State.dropShorts_kept {z s : State} (l : List (Ctx × Group × Nat)) (hz : Kept z s) : Kept z (State.dropShorts s l) := by
  unfold State.dropShorts
  repeat' (with_reducible first
    | assumption | apply Kept.ite | apply Kept.foldl | (intro _ _ _) | (intro _ _) | extract_lets | split
    | apply Kept.upd | rfl)

theorem State.formFinding_kept {z s : State} (t : Ctx) (kind : Byte) (verdict : Byte) (si0 : Nat) (len : Nat) (body : List Byte) (system : Bool) (hz : Kept z s) : Kept z (State.formFinding s t kind verdict si0 len body system) := by
  unfold State.formFinding
  repeat' (with_reducible first
    | assumption | apply State.dropShorts_kept | apply State.routeFinding_kept | apply State.modFind_kept
    | apply Kept.ite | apply Kept.foldl | (intro _ _ _) | (intro _ _) | extract_lets | split | apply Kept.upd | rfl)

theorem State.formSystem_kept {z s : State} (kind : Byte) (body : List Byte) (hz : Kept z s) : Kept z (State.formSystem s kind body) := by
  unfold State.formSystem
  repeat' (with_reducible first
    | assumption | apply State.formFinding_kept | apply Kept.ite | apply Kept.foldl | (intro _ _ _) | (intro _ _)
    | extract_lets | split | apply Kept.upd | rfl)

theorem State.flag_kept {z s : State} (t : Ctx) (i : Nat) (hz : Kept z s) : Kept z (State.flag s t i) := by
  unfold State.flag
  repeat' (with_reducible first
    | assumption | apply State.modFind_kept)

theorem State.flagAll_kept {z s : State} (who : Ctx → Bool) (i : Nat) (hz : Kept z s) : Kept z (State.flagAll s who i) := by
  unfold State.flagAll
  repeat' (with_reducible first
    | assumption | apply State.flag_kept | apply Kept.ite | apply Kept.foldl | (intro _ _ _))

theorem State.recordEntry_kept {z s : State} (e : FaultEntry) (hz : Kept z s) : Kept z (State.recordEntry s e) := by
  unfold State.recordEntry
  repeat' (with_reducible first
    | assumption | apply State.formSystem_kept | apply Kept.ite | apply Kept.foldl | (intro _ _ _) | (intro _ _)
    | extract_lets | split | refine Kept.of_ok (by assumption) ?_ | refine Kept.of_raise (by assumption) ?_
    | refine Kept.of_stall (by assumption) ?_ | refine Kept.of_some (by assumption) ?_
    | refine Kept.of_done (by assumption) ?_ | refine Kept.of_fst (by assumption) ?_
    | refine Kept.of_snd (by assumption) ?_ | apply Kept.upd | rfl)

theorem State.recordFault_kept {z s : State} (code : Nat) (object : Byte) (detail : Nat) (ctx : Option Ctx) (unit : Option UnitId) (escalated : Bool) (hz : Kept z s) : Kept z (State.recordFault s code object detail ctx unit escalated) := by
  unfold State.recordFault
  repeat' (with_reducible first
    | assumption | apply State.recordEntry_kept)

theorem State.c1_kept {z s : State} (code : Nat) (object : Byte) (detail : Nat) (ctx : Option Ctx) (hz : Kept z s) : Kept z (State.c1 s code object detail ctx) := by
  unfold State.c1
  repeat' (with_reducible first
    | assumption | apply State.recordFault_kept)

theorem State.countFault_kept {z s : State} (code : Nat) (object : Nat) (hz : Kept z s) : Kept z (State.countFault s code object) := by
  unfold State.countFault
  repeat' (with_reducible first
    | assumption | apply Kept.ite | apply Kept.foldl | (intro _ _ _) | (intro _ _) | extract_lets | split
    | apply Kept.upd | rfl)

end Sys2Proof.Machine
end

