-- ==== Sys2Proof/Laws/Kept/Rollback.lean ====
section
/-! SUPPORT. What the operations of Machine/Rollback.lean keep (Laws/Kept.lean). -/

namespace Sys2Proof.Machine

theorem State.dropProv_kept {z s : State} (t : Ctx) (hz : Kept z s) : Kept z (State.dropProv s t) := by
  unfold State.dropProv
  repeat' (with_reducible first
    | assumption | apply Kept.ite | apply Kept.foldl | (intro _ _ _) | (intro _ _) | extract_lets | split
    | apply Kept.upd | rfl)

theorem State.dropStores_kept {z s : State} (t : Ctx) (hz : Kept z s) : Kept z (State.dropStores s t) := by
  unfold State.dropStores
  repeat' (with_reducible first
    | assumption | apply Kept.ite | apply Kept.foldl | (intro _ _ _) | (intro _ _) | extract_lets | split
    | apply Kept.upd | rfl)

theorem State.keepSeq_kept {z s : State} (t : Ctx) (hz : Kept z s) : Kept z (State.keepSeq s t) := by
  unfold State.keepSeq
  repeat' (with_reducible first
    | assumption | apply State.modUnit_kept | apply Kept.ite | apply Kept.foldl | (intro _ _ _) | (intro _ _)
    | extract_lets | split)

theorem State.rollBack_kept {z s : State} (t : Ctx) (sp : Spec) (pc : BitVec 19) (hz : Kept z s) : Kept z (State.rollBack s t sp pc) := by
  unfold State.rollBack
  repeat' (with_reducible first
    | assumption | apply State.dropProv_kept | apply State.dropStores_kept | apply State.keepSeq_kept
    | apply State.modCtx_kept | apply State.modUnit_kept | apply Kept.ite)

theorem State.rollAsync_kept {z s : State} (t : Ctx) (hz : Kept z s) : Kept z (State.rollAsync s t) := by
  unfold State.rollAsync
  repeat' (with_reducible first
    | assumption | apply State.modUnit_kept | apply State.rollBack_kept | apply Kept.ite | apply Kept.foldl
    | (intro _ _ _) | (intro _ _) | extract_lets | split)

end Sys2Proof.Machine
end

