-- ==== Sys2Proof/Laws/Kept/Waits.lean ====
section
/-! SUPPORT. What the operations of Machine/Waits.lean keep (Laws/Kept.lean). -/

namespace Sys2Proof.Machine

theorem State.endWait_kept {z s : State} (t : Ctx) (ev : BitVec 7) (timeout : Bool) (bell : Bool) (hz : Kept z s) : Kept z (State.endWait s t ev timeout bell) := by
  unfold State.endWait
  repeat' (with_reducible first
    | assumption | apply State.setCtx_kept | apply Kept.ite | apply Kept.foldl | (intro _ _ _) | (intro _ _)
    | extract_lets | split)

theorem State.levelEvent_kept {z s : State} (t : Ctx) (hz : Kept z s) : Kept z (State.levelEvent s t) := by
  unfold State.levelEvent
  repeat' (with_reducible first
    | assumption | apply State.endWait_kept | apply Kept.ite | apply Kept.foldl | (intro _ _ _) | (intro _ _)
    | extract_lets | split)

theorem State.mailboxWritten_kept {z s : State} (t : Ctx) (hz : Kept z s) : Kept z (State.mailboxWritten s t) := by
  unfold State.mailboxWritten
  repeat' (with_reducible first
    | assumption | apply State.levelEvent_kept | apply State.modCtx_kept)

theorem State.dropCause_kept {z s : State} (t : Ctx) (i : Fin 7) (hz : Kept z s) : Kept z (State.dropCause s t i) := by
  unfold State.dropCause
  repeat' (with_reducible first
    | assumption | apply Kept.ite | apply Kept.foldl | (intro _ _ _) | (intro _ _) | extract_lets | split
    | apply Kept.upd | rfl)

theorem State.takeCause_kept {z s : State} (t : Ctx) (r : Raise) (hz : Kept z s) : Kept z (State.takeCause s t r) := by
  unfold State.takeCause
  repeat' (with_reducible first
    | assumption | apply State.dropCause_kept | apply State.modCtx_kept | apply State.rollAsync_kept | apply Kept.ite
    | apply Kept.foldl | (intro _ _ _) | (intro _ _) | extract_lets | split)

theorem State.signal_kept {z s : State} (t : Ctx) (ev : BitVec 7) (causes : List Raise) (hz : Kept z s) : Kept z (State.signal s t ev causes) := by
  unfold State.signal
  repeat' (with_reducible first
    | assumption | apply State.takeCause_kept | apply State.endWait_kept | apply Kept.ite | apply Kept.foldl
    | (intro _ _ _) | (intro _ _) | extract_lets | split)

theorem State.event_kept {z s : State} (t : Ctx) (i : Nat) (hz : Kept z s) : Kept z (State.event s t i) := by
  unfold State.event
  repeat' (with_reducible first
    | assumption | apply State.signal_kept)

theorem State.raiseAsync_kept {z s : State} (t : Ctx) (code : BitVec 6) (qual : BitVec 4) (data : Word) (hz : Kept z s) : Kept z (State.raiseAsync s t code qual data) := by
  unfold State.raiseAsync
  repeat' (with_reducible first
    | assumption | apply State.signal_kept)

theorem State.raiseWhere_kept {z s : State} (who : Ctx → Bool) (code : BitVec 6) (qual : BitVec 4) (data : Word) (hz : Kept z s) : Kept z (State.raiseWhere s who code qual data) := by
  unfold State.raiseWhere
  repeat' (with_reducible first
    | assumption | apply State.raiseAsync_kept | apply Kept.ite | apply Kept.foldl | apply ResKept.bind
    | apply ResKept.ok | apply ResKept.raise | apply ResKept.stall | apply ResKept.ite | (intro _ _ _))

theorem State.signalAll_kept {z s : State} (ev : BitVec 7) (causes : List Raise) (hz : Kept z s) : Kept z (State.signalAll s ev causes) := by
  unfold State.signalAll
  repeat' (with_reducible first
    | assumption | apply State.signal_kept | apply Kept.ite | apply Kept.foldl | (intro _ _ _))

end Sys2Proof.Machine
end

