-- ==== Sys2Proof/Laws/Kept/Control.lean ====
section
/-! SUPPORT. What the operations of Machine/Control.lean keep (Laws/Kept.lean). -/

namespace Sys2Proof.Machine

theorem State.decideHale_kept {z s : State}  (hz : Kept z s) : Kept z (State.decideHale s) := by
  unfold State.decideHale
  repeat' (with_reducible first
    | assumption | apply Kept.ite | apply Kept.foldl | (intro _ _ _) | (intro _ _) | extract_lets | split
    | apply Kept.upd | rfl)

theorem State.loseMode_kept {z s : State} (m : Nat) (hz : Kept z s) : Kept z (State.loseMode s m) := by
  unfold State.loseMode
  repeat' (with_reducible first
    | assumption | apply State.flagAll_kept | apply Kept.ite | apply Kept.foldl | (intro _ _ _) | (intro _ _)
    | extract_lets | split | apply Kept.upd | rfl)

theorem State.logAct_kept {z s : State} (act : Byte) (hz : Kept z s) : Kept z (State.logAct s act) := by
  unfold State.logAct
  repeat' (with_reducible first
    | assumption | apply State.takeFree_kept | apply Kept.ite | apply Kept.foldl | (intro _ _ _) | (intro _ _)
    | extract_lets | split | refine Kept.of_fst (by assumption) ?_ | refine Kept.of_snd (by assumption) ?_
    | apply Kept.upd | rfl)

theorem State.wakeGroup_kept {z s : State} (g : Group) (hz : Kept z s) : Kept z (State.wakeGroup s g) := by
  unfold State.wakeGroup
  repeat' (with_reducible first
    | assumption | apply Kept.ite | apply Kept.foldl | (intro _ _ _) | (intro _ _) | extract_lets | split
    | apply Kept.upd | rfl)

theorem State.retainGroup_kept {z s : State} (g : Group) (hz : Kept z s) : Kept z (State.retainGroup s g) := by
  unfold State.retainGroup
  repeat' (with_reducible first
    | assumption | apply Kept.ite | apply Kept.foldl | (intro _ _ _) | (intro _ _) | extract_lets | split
    | apply Kept.upd | rfl)

theorem State.wakeArray_kept {z s : State}  (hz : Kept z s) : Kept z (State.wakeArray s) := by
  unfold State.wakeArray
  repeat' (with_reducible first
    | assumption | apply State.wakeGroup_kept | apply State.modInlet_kept | apply Kept.ite | apply Kept.foldl
    | (intro _ _ _) | (intro _ _) | extract_lets | split | apply Kept.upd | rfl)

theorem State.applyAct_kept {z s : State} (ev : BitVec 7) (causes : List Raise) (hz : Kept z s) : Kept z (State.applyAct s ev causes) := by
  unfold State.applyAct
  repeat' (with_reducible first
    | assumption | apply State.logAct_kept | apply State.loseMode_kept | apply State.decideHale_kept
    | apply State.signalAll_kept | apply Kept.ite | apply Kept.foldl | (intro _ _ _))

theorem State.hwMode_kept {z s : State} (m : Nat) (on : Bool) (ev : BitVec 7) (causes : List Raise) (hz : Kept z s) : Kept z (State.hwMode s m on ev causes) := by
  unfold State.hwMode
  repeat' (with_reducible first
    | assumption | apply State.applyAct_kept | apply State.wakeArray_kept | apply Kept.ite | apply Kept.foldl
    | (intro _ _ _) | (intro _ _) | extract_lets | split | apply Kept.upd | rfl)

theorem State.endBurst_kept {z s : State} (t : Ctx) (reason : BitVec 3) (hz : Kept z s) : Kept z (State.endBurst s t reason) := by
  unfold State.endBurst
  repeat' (with_reducible first
    | assumption | apply State.modCtx_kept)

theorem State.beginBurst_kept {z s : State} (t : Ctx) (hz : Kept z s) : Kept z (State.beginBurst s t) := by
  unfold State.beginBurst
  repeat' (with_reducible first
    | assumption | apply State.modCtx_kept)

end Sys2Proof.Machine
end

