-- ==== Sys2Proof/Laws/Kept/Phys.lean ====
section
/-! SUPPORT. What the operations of Machine/Phys.lean keep (Laws/Kept.lean). -/

namespace Sys2Proof.Machine

theorem State.ringMailbox_kept {z s : State} (p : Phys) (hz : Kept z s) : Kept z (State.ringMailbox s p) := by
  unfold State.ringMailbox
  repeat' (with_reducible first
    | assumption | apply State.mailboxWritten_kept | apply Kept.ite | apply Kept.foldl | (intro _ _ _) | (intro _ _)
    | extract_lets | split)

theorem State.poke_kept {z s : State} (p : Phys) (w : Word) (hz : Kept z s) : Kept z (s.poke p w) := by
  unfold State.poke
  extract_lets s1
  refine State.ringMailbox_kept p ?_
  have h1 : s1 = if p.eddy then { s with eddy := Mem.set 0 s.eddy p.word w }
      else { s with pool := Mem.set 0 s.pool p.word w } := rfl
  rw [h1]
  split
  · exact ⟨hz.1, hz.2, fun h => Mem.wf_set _ _ _ _ (hz.3 h), hz.4, hz.5, hz.6⟩
  · exact ⟨hz.1, fun h => Mem.wf_set _ _ _ _ (hz.2 h), hz.3, hz.4, hz.5, hz.6⟩

theorem State.pokeUnit_kept {z s : State} (p : Phys) (u : BitVec 72) (hz : Kept z s) : Kept z (State.pokeUnit s p u) := by
  unfold State.pokeUnit
  repeat' (with_reducible first
    | assumption | apply State.poke_kept | apply Kept.ite | apply Kept.foldl | (intro _ _ _) | (intro _ _)
    | extract_lets | split | apply Kept.upd | rfl)

theorem State.forward_kept {z s : State} (n : NiId) (e : NiId) (units : Nat) (hz : Kept z s) : Kept z (State.forward s n e units) := by
  unfold State.forward
  repeat' (with_reducible first
    | assumption | apply State.modRouter_kept | apply Kept.ite | apply Kept.foldl | (intro _ _ _))

theorem State.charge_kept {z s : State} (q : BitVec 4) (g : Group) (c n : Nat) (hz : Kept z s) : Kept z (State.charge s q g c n) := by
  unfold State.charge
  repeat' (with_reducible first
    | assumption | apply State.modCls_kept | apply Kept.ite)

theorem State.complete_kept {z s : State} (q : BitVec 4) (at_ sample : Nat) (hz : Kept z s) : Kept z (State.complete s q at_ sample) := by
  unfold State.complete
  repeat' (with_reducible first
    | assumption | apply State.modCls_kept)

theorem State.loseCycles_kept {z s : State} (g : Group) (n : Nat) (hz : Kept z s) : Kept z (State.loseCycles s g n) := by
  unfold State.loseCycles
  repeat' (with_reducible first
    | assumption | apply Kept.ite | apply Kept.foldl | (intro _ _ _) | (intro _ _) | extract_lets | split
    | apply Kept.upd | rfl)

theorem State.tellShort_kept {z s : State} (g : Group) (t : Ctx) (hz : Kept z s) : Kept z (State.tellShort s g t) := by
  unfold State.tellShort
  repeat' (with_reducible first
    | assumption | apply State.signal_kept | apply Kept.ite | apply Kept.foldl | (intro _ _ _) | (intro _ _)
    | extract_lets | split | apply Kept.upd | rfl)

theorem State.underShort_kept {z s : State} (q : BitVec 4) (g : Group) (hz : Kept z s) : Kept z (State.underShort s q g) := by
  unfold State.underShort
  repeat' (with_reducible first
    | assumption | apply State.tellShort_kept | apply Kept.ite | apply Kept.foldl | (intro _ _ _) | (intro _ _)
    | extract_lets | split)

theorem State.weirAccess_kept {z s : State} (p : Phys) (q : BitVec 4) (c cycles since : Nat) (hz : Kept z s) : Kept z (State.weirAccess s p q c cycles since) := by
  unfold State.weirAccess
  repeat' (with_reducible first
    | assumption | apply State.charge_kept | apply State.complete_kept | apply State.underShort_kept | apply Kept.ite
    | apply Kept.foldl | (intro _ _ _) | (intro _ _) | extract_lets | split)

theorem State.countRead_kept {z s : State} (p : Phys) (n : Nat) (hz : Kept z s) : Kept z (State.countRead s p n) := by
  unfold State.countRead
  repeat' (with_reducible first
    | assumption | apply State.modBank_kept)

theorem State.countWrite_kept {z s : State} (p : Phys) (n : Nat) (hz : Kept z s) : Kept z (State.countWrite s p n) := by
  unfold State.countWrite
  repeat' (with_reducible first
    | assumption | apply State.modBank_kept)

theorem State.countMerge_kept {z s : State} (p : Phys) (hz : Kept z s) : Kept z (State.countMerge s p) := by
  unfold State.countMerge
  repeat' (with_reducible first
    | assumption | apply State.modBank_kept)

end Sys2Proof.Machine
end

