-- ==== Sys2Proof/Laws/Kept/Flush.lean ====
section
/-! SUPPORT. What the operations of Machine/Flush.lean keep (Laws/Kept.lean). -/

namespace Sys2Proof.Machine

theorem State.dropPacket_kept {z s : State} (p : Packet) (hz : Kept z s) : Kept z (State.dropPacket s p) := by
  unfold State.dropPacket
  repeat' (with_reducible first
    | assumption | apply State.modCls_kept | apply State.modOutlet_kept | apply Kept.ite | apply Kept.foldl
    | (intro _ _ _) | (intro _ _) | extract_lets | split | refine Kept.of_fst (by assumption) ?_
    | refine Kept.of_snd (by assumption) ?_ | apply Kept.upd | rfl)

theorem State.flushNi_kept {z s : State} (n : NiId) (t : Ctx) (hz : Kept z s) : Kept z (State.flushNi s n t) := by
  unfold State.flushNi
  repeat' (with_reducible first
    | assumption | apply State.dropPacket_kept | apply Kept.ite | apply Kept.foldl | (intro _ _ _) | (intro _ _)
    | extract_lets | split | apply Kept.upd | rfl)

theorem State.flushAll_kept {z s : State} (n : NiId) (hz : Kept z s) : Kept z (State.flushAll s n) := by
  unfold State.flushAll
  repeat' (with_reducible first
    | assumption | apply State.flushNi_kept | apply Kept.ite | apply Kept.foldl | (intro _ _ _))

end Sys2Proof.Machine
end

