-- ==== Sys2Proof/Laws/Kept/Proof.lean ====
section
/-! SUPPORT. What the operations of Machine/Proof.lean keep (Laws/Kept.lean). -/

namespace Sys2Proof.Machine

theorem State.planProof_kept {z s : State}  (hz : Kept z s) : Kept z (State.planProof s) := by
  unfold State.planProof
  repeat' (with_reducible first
    | assumption | apply Kept.ite | apply Kept.foldl | (intro _ _ _) | (intro _ _) | extract_lets | split
    | refine Kept.of_ok (by assumption) ?_ | refine Kept.of_raise (by assumption) ?_
    | refine Kept.of_stall (by assumption) ?_ | refine Kept.of_some (by assumption) ?_
    | refine Kept.of_done (by assumption) ?_ | refine Kept.of_fst (by assumption) ?_
    | refine Kept.of_snd (by assumption) ?_ | apply Kept.upd | rfl)

theorem State.withdrawProof_kept {z s : State} (t : Ctx) (hz : Kept z s) : Kept z (State.withdrawProof s t) := by
  unfold State.withdrawProof
  repeat' (with_reducible first
    | assumption | apply State.planProof_kept | apply Kept.ite | apply Kept.foldl | (intro _ _ _) | (intro _ _)
    | extract_lets | split | refine Kept.of_ok (by assumption) ?_ | refine Kept.of_raise (by assumption) ?_
    | refine Kept.of_stall (by assumption) ?_ | refine Kept.of_some (by assumption) ?_
    | refine Kept.of_done (by assumption) ?_ | refine Kept.of_fst (by assumption) ?_
    | refine Kept.of_snd (by assumption) ?_ | apply Kept.upd | rfl)

end Sys2Proof.Machine
end

