-- ==== Sys2Proof/Laws/Kept/Stop.lean ====
section
/-! SUPPORT. What the operations of Machine/Stop.lean keep (Laws/Kept.lean). -/

namespace Sys2Proof.Machine

theorem State.sendGoing_kept {z s : State} (cause : StopCause) (reason : BitVec 32) (hz : Kept z s) : Kept z (State.sendGoing s cause reason) := by
  unfold State.sendGoing
  repeat' (with_reducible first
    | assumption | apply State.emit_kept)

theorem State.drainStop_kept {z s : State} (e : StoreEntry) (hz : Kept z s) : Kept z (State.drainStop s e) := by
  unfold State.drainStop
  repeat' (with_reducible first
    | assumption | apply State.c1_kept | apply State.countMerge_kept | apply State.countRead_kept
    | apply State.modBank_kept | apply State.poke_kept | apply Kept.ite | apply Kept.foldl | (intro _ _ _)
    | (intro _ _) | extract_lets | split)

theorem State.drainAllStop_kept {z s : State} (hz : Kept z s) : Kept z (State.drainAllStop s) := by
  unfold State.drainAllStop
  repeat' (with_reducible first
    | assumption | apply State.drainStop_kept | apply State.flushAll_kept | apply Kept.ite | apply Kept.foldl
    | (intro _ _ _) | (intro _ _) | extract_lets | split | refine Kept.of_fst (by assumption) ?_
    | refine Kept.of_snd (by assumption) ?_ | apply Kept.upd | rfl)

theorem State.stopContexts_kept {z s : State} (hz : Kept z s) : Kept z (State.stopContexts s) := by
  unfold State.stopContexts
  repeat' (with_reducible first
    | assumption | apply State.rollAsync_kept | apply Kept.ite | apply Kept.foldl | (intro _ _ _) | (intro _ _)
    | extract_lets | split | apply Kept.upd | rfl)

theorem State.recordCounted_kept {z s : State}  (hz : Kept z s) : Kept z (State.recordCounted s) := by
  unfold State.recordCounted
  repeat' (with_reducible first
    | assumption | apply State.c1_kept | apply Kept.ite | apply Kept.foldl | (intro _ _ _) | (intro _ _)
    | extract_lets | split | apply Kept.upd | rfl)

theorem State.settleFindings_kept {z s : State} (hz : Kept z s) : Kept z (State.settleFindings s) := by
  unfold State.settleFindings
  repeat' (with_reducible first
    | assumption | apply State.divertBehind_kept | apply State.emit_kept | apply State.toLedger_kept | apply Kept.ite
    | apply Kept.foldl | (intro _ _ _) | (intro _ _) | extract_lets | split | apply Kept.upd | rfl)

theorem State.decideStop_kept {z s : State} (cause : StopCause) (reason : BitVec 32) (hz : Kept z s) : Kept z (State.decideStop s cause reason) := by
  unfold State.decideStop
  repeat' (with_reducible first
    | assumption | apply State.drainAllStop_kept | apply State.recordCounted_kept | apply State.sendGoing_kept
    | apply State.settleFindings_kept | apply State.stopContexts_kept | apply Kept.ite | apply Kept.foldl
    | (intro _ _ _) | (intro _ _) | extract_lets | split | refine Kept.of_fst (by assumption) ?_
    | refine Kept.of_snd (by assumption) ?_ | apply Kept.upd | rfl)

end Sys2Proof.Machine
end

