-- ==== Sys2Proof/Laws/Kept/Halt.lean ====
section
/-! SUPPORT. What the operations of Machine/Halt.lean keep (Laws/Kept.lean). -/

namespace Sys2Proof.Machine

theorem State.beginC4_kept {z s : State}  (hz : Kept z s) : Kept z (State.beginC4 s) := by
  unfold State.beginC4
  repeat' (with_reducible first
    | assumption | apply State.decideStop_kept)

theorem State.takeFault_kept {z s : State} (code : Nat) (object : Byte) (detail : Nat) (ctx : Option Ctx) (unit : Option UnitId) (hz : Kept z s) : Kept z (State.takeFault s code object detail ctx unit) := by
  unfold State.takeFault
  repeat' (with_reducible first
    | assumption | apply State.beginC4_kept | apply State.recordFault_kept | apply Kept.ite | apply Kept.foldl
    | (intro _ _ _) | (intro _ _) | extract_lets | split | apply Kept.upd | rfl)

theorem State.parkRegions_kept {z s : State} (t : Ctx) (hz : Kept z s) : Kept z (State.parkRegions s t) := by
  unfold State.parkRegions
  repeat' (with_reducible first
    | assumption | apply Kept.ite | apply Kept.foldl | (intro _ _ _) | (intro _ _) | extract_lets | split
    | refine Kept.of_ok (by assumption) ?_ | refine Kept.of_raise (by assumption) ?_
    | refine Kept.of_stall (by assumption) ?_ | refine Kept.of_some (by assumption) ?_
    | refine Kept.of_done (by assumption) ?_ | refine Kept.of_fst (by assumption) ?_
    | refine Kept.of_snd (by assumption) ?_ | apply Kept.upd | rfl)

theorem State.quietStrips_kept {z s : State} (t : Ctx) (hz : Kept z s) : Kept z (State.quietStrips s t) := by
  unfold State.quietStrips
  repeat' (with_reducible first
    | assumption | apply Kept.ite | apply Kept.foldl | (intro _ _ _) | (intro _ _) | extract_lets | split
    | apply Kept.upd | rfl)

theorem State.flushTenant_kept {z s : State} (t : Ctx) (hz : Kept z s) : Kept z (State.flushTenant s t) := by
  unfold State.flushTenant
  repeat' (with_reducible first
    | assumption | apply State.flushNi_kept | apply Kept.ite | apply Kept.foldl | (intro _ _ _))

theorem State.haltFinding_kept {z s : State} (t : Ctx) (e : FaultEntry) (hz : Kept z s) : Kept z (State.haltFinding s t e) := by
  unfold State.haltFinding
  repeat' (with_reducible first
    | assumption | apply State.formFinding_kept | apply Kept.ite)

theorem State.haltSteps_kept {z s : State} (t : Ctx) (e : FaultEntry) (hz : Kept z s) : Kept z (State.haltSteps s t e) := by
  unfold State.haltSteps
  repeat' (with_reducible first
    | assumption | apply State.applyAct_kept | apply State.dropProv_kept | apply State.flushTenant_kept
    | apply State.haltFinding_kept | apply State.keepSeq_kept | apply State.modCtx_kept
    | apply State.parkRegions_kept | apply State.quietStrips_kept | apply State.withdrawProof_kept | apply Kept.ite
    | apply Kept.foldl | (intro _ _ _) | (intro _ _) | extract_lets | split | refine Kept.of_some (by assumption) ?_
    | apply Kept.upd | rfl)

theorem State.haltCtx_kept {z s : State} (t : Ctx) (code : Nat) (object : Byte) (detail : Nat) (unit : Option UnitId) (hz : Kept z s) : Kept z (State.haltCtx s t code object detail unit) := by
  unfold State.haltCtx
  repeat' (with_reducible first
    | assumption | apply State.haltSteps_kept | apply State.takeFault_kept | apply State.recordEntry_kept
    | apply Kept.ite)

theorem State.recordCause_kept {z s : State} (t : Ctx) (code : BitVec 6) (data : Word) (slot : BitVec 2) (sp : Bool) (hz : Kept z s) : Kept z (State.recordCause s t code data slot sp) := by
  unfold State.recordCause
  repeat' (with_reducible first
    | assumption | apply State.modCtx_kept)

theorem State.degrade_kept {z s : State} (t : Ctx) (qual : BitVec 4) (data : Nat) (hz : Kept z s) : Kept z (State.degrade s t qual data) := by
  unfold State.degrade
  repeat' (with_reducible first
    | assumption | apply State.raiseAsync_kept)

theorem State.degradeWhere_kept {z s : State} (who : Ctx → Bool) (qual : BitVec 4) (data : Nat) (hz : Kept z s) : Kept z (State.degradeWhere s who qual data) := by
  unfold State.degradeWhere
  repeat' (with_reducible first
    | assumption | apply State.raiseWhere_kept)

theorem State.clearPlanes_kept {z s : State} (k : Strip) (hz : Kept z s) : Kept z (State.clearPlanes s k) := by
  unfold State.clearPlanes
  repeat' (with_reducible first
    | assumption | apply Kept.ite | apply Kept.foldl | (intro _ _ _) | (intro _ _) | extract_lets | split
    | apply Kept.upd | rfl)

theorem State.remap_kept {z s : State} (k : Strip) (j : Strip) (hz : Kept z s) : Kept z (State.remap s k j) := by
  unfold State.remap
  repeat' (with_reducible first
    | assumption | apply State.clearPlanes_kept | apply State.modStrip_kept)

theorem State.spareOffline_kept {z s : State} (k : Strip) (hz : Kept z s) : Kept z (State.spareOffline s k) := by
  unfold State.spareOffline
  repeat' (with_reducible first
    | assumption | apply State.takeFault_kept | apply State.modStrip_kept)

theorem State.readSpares_kept {z s : State} (hz : Kept z s) : Kept z (State.readSpares s) := by
  unfold State.readSpares
  repeat' (with_reducible first
    | assumption | apply State.spareOffline_kept | apply Kept.ite | apply Kept.foldl | (intro _ _ _) | (intro _ _)
    | extract_lets | split | apply Kept.upd | rfl)

theorem State.stripOffline_kept {z s : State} (k : Strip) (hz : Kept z s) : Kept z (State.stripOffline s k) := by
  unfold State.stripOffline
  repeat' (with_reducible first
    | assumption | apply State.clearPlanes_kept | apply State.degrade_kept | apply State.flushNi_kept
    | apply State.haltSteps_kept | apply State.modStrip_kept | apply State.readSpares_kept | apply State.remap_kept
    | apply State.spareOffline_kept | apply State.takeFault_kept | apply Kept.ite | apply Kept.foldl | (intro _ _ _)
    | (intro _ _) | extract_lets | split)

theorem State.unitOffline_kept {z s : State} (n : UnitId) (t : Ctx) (part : UnitPart) (hz : Kept z s) : Kept z (State.unitOffline s n t part) := by
  unfold State.unitOffline
  repeat' (with_reducible first
    | assumption | apply State.degradeWhere_kept | apply State.flushAll_kept | apply State.haltSteps_kept
    | apply State.modUnit_kept | apply State.takeFault_kept)

theorem State.bankOffline_kept {z s : State} (b : BankId) (hz : Kept z s) : Kept z (State.bankOffline s b) := by
  unfold State.bankOffline
  repeat' (with_reducible first
    | assumption | apply State.degradeWhere_kept | apply State.takeFault_kept | apply State.modBank_kept)

theorem State.uncError_kept {z s : State} (b : BankId) (unit : Nat) (scrub : Bool) (hz : Kept z s) : Kept z (State.uncError s b unit scrub) := by
  unfold State.uncError
  repeat' (with_reducible first
    | assumption | apply State.bankOffline_kept | apply State.c1_kept | apply State.modBank_kept | apply Kept.ite)

theorem State.corError_kept {z s : State} (b : BankId) (hz : Kept z s) : Kept z (State.corError s b) := by
  unfold State.corError
  repeat' (with_reducible first
    | assumption | apply State.countFault_kept | apply State.modBank_kept)

end Sys2Proof.Machine
end

