-- ==== Sys2Proof/Laws/Kept/Packets.lean ====
section
/-! SUPPORT. What the operations of Machine/Packets.lean keep (Laws/Kept.lean). -/

namespace Sys2Proof.Machine

theorem Way.meet_kept {z : State} (w : Way) (h : Hit) (hz : Kept z w.st) : Kept z (w.meet h).st := by
  unfold Way.meet
  split
  · exact hz
  split
  · exact State.countFault_kept _ _ (State.modRouter_kept _ _ hz)
  split
  · dsimp only; exact State.modRouter_kept _ _ hz
  · exact State.countFault_kept _ _ (State.modRouter_kept _ _ hz)

theorem Way.meetAll_kept {z : State} (l : Damage) (w : Way) (hz : Kept z w.st) : Kept z (l.foldl Way.meet w).st := by
  induction l generalizing w with
  | nil => exact hz
  | cons h l ih => exact ih _ (Way.meet_kept w h hz)

theorem Way.cross_kept {z : State} (d : Damage) (w : Way) (r : RouterId) (hz : Kept z w.st) : Kept z (w.cross d r).st := by
  unfold Way.cross
  dsimp only
  exact State.modRouter_kept _ _ (Way.meetAll_kept _ _ hz)

theorem Way.crossAll_kept {z : State} (d : Damage) (l : List RouterId) (w : Way) (hz : Kept z w.st) :
    Kept z (l.foldl (Way.cross d) w).st := by
  induction l generalizing w with
  | nil => exact hz
  | cons r l ih => exact ih _ (Way.cross_kept d w r hz)

theorem State.transit_kept {z s : State} (n e : NiId) (d : Damage) (us : List LinkUnit) (hz : Kept z s) :
    Kept z (s.transit n e d us).2 := by
  unfold State.transit
  extract_lets x w
  have hw : Kept z w.st := Way.crossAll_kept _ _ _ hz
  split
  · split <;> exact hw
  · split
    · exact hw
    · exact State.countFault_kept _ _ (State.modRouter_kept _ _ hw)

theorem State.modTag_kept {z s : State} (n : NiId) (tag : BitVec 6) (f : Tag → Tag) (hz : Kept z s) : Kept z (State.modTag s n tag f) := by
  unfold State.modTag
  repeat' (with_reducible first
    | assumption | apply Kept.ite | apply Kept.foldl | (intro _ _ _) | (intro _ _) | extract_lets | split
    | apply Kept.upd | rfl)

theorem State.freeTag_kept {z s : State} (n : NiId) (tag : BitVec 6) (hz : Kept z s) : Kept z (State.freeTag s n tag) := by
  unfold State.freeTag
  repeat' (with_reducible first
    | assumption | apply Kept.ite | apply Kept.foldl | (intro _ _ _) | (intro _ _) | extract_lets | split
    | apply Kept.upd | rfl)

theorem State.retire_kept {z s : State} (n : NiId) (tag : BitVec 6) (hz : Kept z s) : Kept z (State.retire s n tag) := by
  unfold State.retire
  repeat' (with_reducible first
    | assumption | apply State.modTag_kept)

theorem State.syncRaise_kept {z s : State} (t : Ctx) (code : BitVec 6) (data : Word) (hz : Kept z s) : Kept z (State.syncRaise s t code data) := by
  unfold State.syncRaise
  repeat' (with_reducible first
    | assumption | apply State.modCtx_kept | apply Kept.ite)

theorem State.toRequester_kept {z s : State} (p : Purpose) (code : BitVec 6) (hz : Kept z s) : Kept z (State.toRequester s p code) := by
  unfold State.toRequester
  repeat' (with_reducible first
    | assumption | apply State.raiseAsync_kept | apply State.syncRaise_kept | apply Kept.ite | apply Kept.foldl
    | apply ResKept.bind | apply ResKept.ok | apply ResKept.raise | apply ResKept.stall | apply ResKept.ite
    | (intro _ _ _) | (intro _ _) | extract_lets | split)

theorem State.useReply_kept {z s : State} (x : Tag) (r : FillReply) (hz : Kept z s) : Kept z (State.useReply s x r) := by
  unfold State.useReply
  repeat' (with_reducible first
    | assumption | apply State.modRegion_kept | apply State.modUnit_kept | apply State.toRequester_kept
    | apply Kept.ite | apply Kept.foldl | (intro _ _ _) | (intro _ _) | extract_lets | split)

theorem State.comeBack_kept {z s : State} (q : Req) (d : Damage) (r : Response) (hz : Kept z s) :
    Kept z (s.comeBack q d r).2 := by
  unfold State.comeBack
  extract_lets y
  have hy : Kept z y.2 := State.transit_kept _ _ _ _ hz
  split
  · exact hy
  · split <;> exact hy

theorem State.deliver_kept {z s : State} (x : Tag) (r : Response) (hz : Kept z s) : Kept z (State.deliver s x r) := by
  unfold State.deliver
  repeat' (with_reducible first
    | assumption | apply State.comeBack_kept | apply State.freeTag_kept | apply State.modNi_kept
    | apply State.useReply_kept | apply Kept.ite | apply Kept.foldl | (intro _ _ _) | (intro _ _) | extract_lets
    | split | refine Kept.of_some (by assumption) ?_ | refine Kept.of_fst (by assumption) ?_
    | refine Kept.of_snd (by assumption) ?_)

theorem State.answer_kept {z s : State} (n : NiId) (tag : BitVec 6) (r : Response) (hz : Kept z s) : Kept z (State.answer s n tag r) := by
  unfold State.answer
  repeat' (with_reducible first
    | assumption | apply State.deliver_kept | apply State.modTag_kept | apply Kept.ite | apply Kept.foldl
    | (intro _ _ _) | (intro _ _) | extract_lets | split | refine Kept.of_some (by assumption) ?_ | apply Kept.upd
    | rfl)

theorem State.meetEcc_kept {z s : State} (p : Phys) (a0 : Ecc) (hz : Kept z s) : Kept z (State.meetEcc s p a0) := by
  unfold State.meetEcc
  repeat' (with_reducible first
    | assumption | apply State.corError_kept | apply State.countWrite_kept | apply Kept.ite | apply Kept.foldl
    | (intro _ _ _) | (intro _ _) | extract_lets | split | apply Kept.upd | rfl)

theorem State.touch_kept {z s : State} (p : Phys) (portB : Bool) (c : Nat) (write : Bool) (hz : Kept z s) : Kept z (State.touch s p portB c write) := by
  unfold State.touch
  repeat' (with_reducible first
    | assumption | apply State.modBank_kept)

theorem State.holdPort_kept {z s : State} (p : Phys) (portB : Bool) (c n : Nat) (hz : Kept z s) : Kept z (State.holdPort s p portB c n) := by
  unfold State.holdPort
  repeat' (with_reducible first
    | assumption | apply State.modBank_kept)

theorem State.readAt_kept {z s : State} (portB : Bool) (p : Phys) (c : Nat) (e : Ecc) (hz : Kept z s) : Kept z (State.readAt s portB p c e).2 := by
  unfold State.readAt
  repeat' (with_reducible first
    | assumption | apply State.countRead_kept | apply State.meetEcc_kept | apply State.touch_kept
    | apply State.uncError_kept | apply Kept.ite)

theorem State.readsAt_kept {z s : State} (portB : Bool) (a0 : List (Phys × Ecc)) (a1 : Nat) (hz : Kept z s) : Kept z (State.readsAt portB a0 a1 s).2 := by
  induction a0 generalizing s a1 with
  | nil =>
    unfold State.readsAt
    repeat' (with_reducible first
      | assumption)
  | cons k l ih =>
    unfold State.readsAt
    repeat' (with_reducible first
      | assumption | apply ih | apply State.readAt_kept)

theorem State.writeAt_kept {z s : State} (portB : Bool) (p : Phys) (c : Nat) (u : BitVec 72) (hz : Kept z s) : Kept z (State.writeAt s portB p c u) := by
  unfold State.writeAt
  repeat' (with_reducible first
    | assumption | apply State.countWrite_kept | apply State.pokeUnit_kept | apply State.touch_kept | apply Kept.ite)

theorem State.writesAt_kept {z s : State} (portB : Bool) (a0 : List (Phys × BitVec 72)) (a1 : Nat) (hz : Kept z s) : Kept z (State.writesAt portB a0 a1 s) := by
  induction a0 generalizing s a1 with
  | nil =>
    unfold State.writesAt
    repeat' (with_reducible first
      | assumption)
  | cons k l ih =>
    unfold State.writesAt
    repeat' (with_reducible first
      | assumption | apply ih | apply State.writeAt_kept)

theorem State.markFetched_kept {z s : State} (blk : Nat) (n : NiId) (hz : Kept z s) : Kept z (State.markFetched s blk n) := by
  unfold State.markFetched
  repeat' (with_reducible first
    | assumption | apply Kept.ite | apply Kept.foldl | (intro _ _ _) | (intro _ _) | extract_lets | split
    | apply Kept.upd | rfl)

theorem State.markBlocks_kept {z s : State} (q : Req) (hz : Kept z s) : Kept z (State.markBlocks s q) := by
  unfold State.markBlocks
  repeat' (with_reducible first
    | assumption | apply State.markFetched_kept)

theorem State.snoopPosted_kept {z s : State} (p : Phys) (hz : Kept z s) : Kept z (State.snoopPosted s p) := by
  unfold State.snoopPosted
  repeat' (with_reducible first
    | assumption | apply Kept.ite | apply Kept.foldl | (intro _ _ _) | (intro _ _) | extract_lets | split
    | refine Kept.of_fst (by assumption) ?_ | refine Kept.of_snd (by assumption) ?_ | apply Kept.upd | rfl)

theorem State.snoopWrite_kept {z s : State} (p : Phys) (n : NiId) (f : AckFor) (hz : Kept z s) : Kept z (State.snoopWrite s p n f) := by
  unfold State.snoopWrite
  repeat' (with_reducible first
    | assumption | apply State.snoopPosted_kept | apply Kept.ite | apply Kept.foldl | (intro _ _ _) | (intro _ _)
    | extract_lets | split | apply Kept.upd | rfl)

theorem State.ackWrite_kept {z s : State} (q : Req) (n : Nat) (hz : Kept z s) : Kept z (State.ackWrite s q n) := by
  unfold State.ackWrite
  repeat' (with_reducible first
    | assumption | apply State.answer_kept | apply State.snoopWrite_kept | apply Kept.ite)

theorem State.ackPosted_kept {z s : State} (q : Req) (n : Nat) (hz : Kept z s) : Kept z (State.ackPosted s q n) := by
  unfold State.ackPosted
  repeat' (with_reducible first
    | assumption | apply State.snoopPosted_kept | apply Kept.ite)

theorem State.performRead_kept {z s : State} (p : Packet) (c : Nat) (hz : Kept z s) : Kept z (State.performRead s p c) := by
  unfold State.performRead
  repeat' (with_reducible first
    | assumption | apply State.answer_kept | apply State.holdPort_kept | apply State.markBlocks_kept
    | apply State.readsAt_kept | apply State.weirAccess_kept | apply Kept.ite)

theorem State.pokeWords_kept {z s : State} (p : Phys) (us : List (BitVec 72)) (hz : Kept z s) : Kept z (State.pokeWords s p us) := by
  unfold State.pokeWords
  repeat' (with_reducible first
    | assumption | apply State.poke_kept | apply Kept.ite | apply Kept.foldl | (intro _ _ _))

theorem State.performWrite_kept {z s : State} (p : Packet) (c : Nat) (hz : Kept z s) : Kept z (State.performWrite s p c) := by
  unfold State.performWrite
  repeat' (with_reducible first
    | assumption | apply State.ackPosted_kept | apply State.ackWrite_kept | apply State.countWrite_kept
    | apply State.holdPort_kept | apply State.pokeWords_kept | apply State.weirAccess_kept
    | apply State.writesAt_kept | apply Kept.ite)

theorem State.performWord_kept {z s : State} (p : Packet) (c : Nat) (hz : Kept z s) : Kept z (State.performWord s p c) := by
  unfold State.performWord
  repeat' (with_reducible first
    | assumption | apply State.ackWrite_kept | apply State.answer_kept | apply State.corError_kept
    | apply State.holdPort_kept | apply State.modBank_kept | apply State.poke_kept | apply State.readAt_kept
    | apply State.touch_kept | apply State.weirAccess_kept | apply Kept.ite)

theorem State.perform_kept {z s : State} (p : Packet) (c : Nat) (hz : Kept z s) : Kept z (State.perform s p c) := by
  unfold State.perform
  repeat' (with_reducible first
    | assumption | apply State.answer_kept | apply State.performRead_kept | apply State.performWord_kept
    | apply State.performWrite_kept | apply Kept.ite)

theorem State.touchBank_kept {z s : State} (p : Phys) (hz : Kept z s) : Kept z (State.touchBank s p) := by
  unfold State.touchBank
  repeat' (with_reducible first
    | assumption | apply State.modBank_kept | apply State.wakeGroup_kept | apply Kept.ite | apply Kept.foldl
    | (intro _ _ _) | (intro _ _) | extract_lets | split)

theorem State.countZero_kept {z s : State} (q : BitVec 4) (hz : Kept z s) : Kept z (State.countZero s q) := by
  unfold State.countZero
  repeat' (with_reducible first
    | assumption | apply State.modCls_kept)

theorem State.noteShort_kept {z s : State} (p : Packet) (hz : Kept z s) : Kept z (State.noteShort s p) := by
  unfold State.noteShort
  repeat' (with_reducible first
    | assumption | apply State.underShort_kept | apply Kept.ite | apply Kept.foldl | (intro _ _ _) | (intro _ _)
    | extract_lets | split)

theorem State.wait_kept {z s : State} (p : Packet) (at_ : Stage) (hz : Kept z s) : Kept z (State.wait s p at_) := by
  unfold State.wait
  repeat' (with_reducible first
    | assumption | apply Kept.ite | apply Kept.foldl | (intro _ _ _) | (intro _ _) | extract_lets | split
    | refine Kept.of_fst (by assumption) ?_ | refine Kept.of_snd (by assumption) ?_ | apply Kept.upd | rfl)

theorem State.unwait_kept {z s : State} (p : Packet) (hz : Kept z s) : Kept z (State.unwait s p) := by
  unfold State.unwait
  repeat' (with_reducible first
    | assumption | apply Kept.ite | apply Kept.foldl | (intro _ _ _) | (intro _ _) | extract_lets | split
    | apply Kept.upd | rfl)

theorem State.outUp_kept {z s : State} (p : Packet) (hz : Kept z s) : Kept z (State.outUp s p) := by
  unfold State.outUp
  repeat' (with_reducible first
    | assumption | apply State.modCls_kept | apply Kept.ite)

theorem State.outDown_kept {z s : State} (p : Packet) (hz : Kept z s) : Kept z (State.outDown s p) := by
  unfold State.outDown
  repeat' (with_reducible first
    | assumption | apply State.modCls_kept | apply Kept.ite)

theorem State.refusePacket_kept {z s : State} (p : Packet) (code : Byte) (hz : Kept z s) : Kept z (State.refusePacket s p code) := by
  unfold State.refusePacket
  repeat' (with_reducible first
    | assumption | apply State.answer_kept | apply Kept.ite)

theorem State.land_kept {z s : State} (p : Packet) (hz : Kept z s) : Kept z (State.land s p) := by
  unfold State.land
  repeat' (with_reducible first
    | assumption | apply State.countZero_kept | apply State.noteShort_kept | apply State.outUp_kept
    | apply State.perform_kept | apply State.refusePacket_kept | apply State.touchBank_kept | apply State.wait_kept
    | apply Kept.ite | apply Kept.foldl | (intro _ _ _) | (intro _ _) | extract_lets | split)

theorem State.takeTag_kept {z s : State} (p : Packet) (hz : Kept z s) : Kept z (State.takeTag s p) := by
  unfold State.takeTag
  repeat' (with_reducible first
    | assumption | apply Kept.ite | apply Kept.foldl | (intro _ _ _) | (intro _ _) | extract_lets | split
    | apply Kept.upd | rfl)

theorem State.countSent_kept {z s : State} (p : Packet) (hz : Kept z s) : Kept z (State.countSent s p) := by
  unfold State.countSent
  repeat' (with_reducible first
    | assumption | apply State.modOutlet_kept | apply Kept.ite | apply Kept.foldl | (intro _ _ _) | (intro _ _)
    | extract_lets | split)

theorem State.inject_kept {z s : State} (p : Packet) (hz : Kept z s) : Kept z (s.inject p).2 := by
  unfold State.inject
  extract_lets q us x
  have hx : Kept z x.2 := State.transit_kept _ _ _ _ (State.countSent_kept _ (State.takeTag_kept _ hz))
  split <;> exact hx

theorem State.launch_kept {z s : State} (p : Packet) (hz : Kept z s) : Kept z (State.launch s p) := by
  unfold State.launch
  repeat' (with_reducible first
    | assumption | apply State.inject_kept | apply State.land_kept | apply Kept.ite | apply Kept.foldl
    | (intro _ _ _) | (intro _ _) | extract_lets | split | refine Kept.of_some (by assumption) ?_
    | refine Kept.of_fst (by assumption) ?_ | refine Kept.of_snd (by assumption) ?_)

theorem State.offer_kept {z s : State} (p : Packet) (hz : Kept z s) : Kept z (State.offer s p) := by
  unfold State.offer
  repeat' (with_reducible first
    | assumption | apply State.launch_kept | apply State.noteShort_kept | apply State.wait_kept | apply Kept.ite)

theorem State.takeFate_kept {z s : State} (hz : Kept z s) : Kept z (State.takeFate s).2 := by
  unfold State.takeFate
  repeat' (with_reducible first
    | assumption | apply Kept.ite | apply Kept.foldl | (intro _ _ _) | (intro _ _) | extract_lets | split
    | refine Kept.of_fst (by assumption) ?_ | refine Kept.of_snd (by assumption) ?_ | apply Kept.upd | rfl)

theorem State.sendRequest_kept {z s : State} (n : NiId) (cmd : BitVec 5) (t : Ctx) (qc : BitVec 4) (tag : BitVec 6) (p : Phys) (len : Nat) (why : Purpose) (units : List (BitVec 72)) (hz : Kept z s) : Kept z (State.sendRequest s n cmd t qc tag p len why units) := by
  unfold State.sendRequest
  repeat' (with_reducible first
    | assumption | apply State.offer_kept | apply State.takeFate_kept)

end Sys2Proof.Machine
end

