-- ==== Sys2Proof/Laws/Kept/Memory.lean ====
section
/-! SUPPORT. What the operations of Machine/Memory.lean keep (Laws/Kept.lean). -/

namespace Sys2Proof.Machine

theorem State.addFill_kept {z s : State} (t : Ctx) (fetch : Bool) (addr : BitVec 18) (block : Nat) (tag : BitVec 6) (hz : Kept z s) : Kept z (State.addFill s t fetch addr block tag) := by
  unfold State.addFill
  repeat' (with_reducible first
    | assumption | apply State.modUnit_kept)

theorem State.asked_kept {z s : State} (t : Ctx) (fetch : Bool) (addr : BitVec 18) (i : Nat) (hz : Kept z s) : ResKept z (State.asked s t fetch addr i) := by
  unfold State.asked
  repeat' (with_reducible first
    | assumption | apply Kept.ite | apply Kept.foldl | apply ResKept.bind | apply ResKept.ok | apply ResKept.raise
    | apply ResKept.stall | apply ResKept.ite | (intro _ _ _) | (intro _ _) | extract_lets | split)

theorem State.ask_kept {z s : State} (t : Ctx) (fetch : Bool) (p want : Phys) (count : Nat) (addr : BitVec 18) (hz : Kept z s) : ResKept z (State.ask s t fetch p want count addr) := by
  unfold State.ask
  repeat' (with_reducible first
    | assumption | apply State.addFill_kept | apply State.asked_kept | apply State.sendRequest_kept | apply Kept.ite
    | apply Kept.foldl | apply ResKept.bind | apply ResKept.ok | apply ResKept.raise | apply ResKept.stall
    | apply ResKept.ite | (intro _ _ _) | (intro _ _) | extract_lets | split)

theorem State.drainEntry_kept {z s : State} (n : UnitId) (tag : BitVec 6) (e : StoreEntry) (hz : Kept z s) : Kept z (State.drainEntry s n tag e) := by
  unfold State.drainEntry
  repeat' (with_reducible first
    | assumption | apply State.sendRequest_kept | apply Kept.ite | apply Kept.foldl | (intro _ _ _) | (intro _ _)
    | extract_lets | split)

theorem State.drainOne_kept {z s : State} (n : UnitId) (hz : Kept z s) : Kept z (State.drainOne s n) := by
  unfold State.drainOne
  repeat' (with_reducible first
    | assumption | apply State.drainEntry_kept | apply State.modUnit_kept | apply Kept.ite | apply Kept.foldl
    | (intro _ _ _) | (intro _ _) | extract_lets | split)

theorem State.drainUpTo_kept {z s : State} (n : UnitId) (k : Nat) (hz : Kept z s) : Kept z (s.drainUpTo n k) := by
  induction k generalizing s with
  | zero => exact hz
  | succ k ih => exact ih (State.drainOne_kept n hz)

theorem State.drainUnit_kept {z s : State} (n : UnitId) (hz : Kept z s) : Kept z (s.drainUnit n) :=
  State.drainUpTo_kept n 8 hz

theorem State.load_kept {z s : State} (t : Ctx) (addr : BitVec 18) (hz : Kept z s) : ResKept z (State.load s t addr) := by
  unfold State.load
  repeat' (with_reducible first
    | assumption | apply State.ask_kept | apply Kept.ite | apply Kept.foldl | apply ResKept.bind | apply ResKept.ok
    | apply ResKept.raise | apply ResKept.stall | apply ResKept.ite | (intro _ _ _) | (intro _ _) | extract_lets
    | split)

theorem State.store_kept {z s : State} (t : Ctx) (addr : BitVec 18) (v : Word) (hz : Kept z s) : ResKept z (State.store s t addr v) := by
  unfold State.store
  repeat' (with_reducible first
    | assumption | apply State.modUnit_kept | apply State.modCtx_kept | apply Kept.ite | apply Kept.foldl
    | apply ResKept.ite | apply ResKept.ok | apply ResKept.raise | apply ResKept.stall | apply ResKept.bind
    | (intro _ _ _) | (intro _ _) | extract_lets | split)

theorem State.commitStores_kept {z s : State} (t : Ctx) (hz : Kept z s) : Kept z (State.commitStores s t) := by
  unfold State.commitStores
  repeat' (with_reducible first
    | assumption | apply State.modUnit_kept | apply State.modCtx_kept | apply Kept.ite | apply Kept.foldl
    | (intro _ _ _))

theorem State.fetch_kept {z s : State} (t : Ctx) (pc : BitVec 19) (hz : Kept z s) : ResKept z (State.fetch s t pc) := by
  unfold State.fetch
  repeat' (with_reducible first
    | assumption | apply State.ask_kept | apply State.modUnit_kept | apply Kept.ite | apply Kept.foldl
    | apply ResKept.bind | apply ResKept.ok | apply ResKept.raise | apply ResKept.stall | apply ResKept.ite
    | (intro _ _ _) | (intro _ _) | extract_lets | split)

end Sys2Proof.Machine
end

