-- ==== Sys2Proof/Laws/Kept/Issue.lean ====
section
/-! SUPPORT. What the operations of Machine/Issue.lean keep (Laws/Kept.lean). -/

namespace Sys2Proof.Machine

theorem State.causeData_kept {z s : State} (r : Raise) (hz : Kept z s) : Kept z (State.causeData s r).2 := by
  unfold State.causeData
  repeat' (with_reducible first
    | assumption | apply Kept.ite | apply Kept.foldl | (intro _ _ _) | (intro _ _) | extract_lets | split
    | refine Kept.of_ok (by assumption) ?_ | refine Kept.of_raise (by assumption) ?_
    | refine Kept.of_stall (by assumption) ?_ | refine Kept.of_some (by assumption) ?_
    | refine Kept.of_done (by assumption) ?_ | refine Kept.of_fst (by assumption) ?_
    | refine Kept.of_snd (by assumption) ?_ | apply Kept.upd | rfl)

theorem State.enterBell_kept {z s : State} (t : Ctx) (r : Raise) (f : CauseFlags) (bepc : BitVec 19) (hz : Kept z s) : Kept z (State.enterBell s t r f bepc) := by
  unfold State.enterBell
  repeat' (with_reducible first
    | assumption | apply State.causeData_kept | apply State.modUnit_kept | apply State.modCtx_kept)

theorem State.nested_kept {z s : State} (t : Ctx) (r : Raise) (hz : Kept z s) : Kept z (State.nested s t r) := by
  unfold State.nested
  repeat' (with_reducible first
    | assumption | apply State.haltCtx_kept)

theorem State.takeSync_kept {z s : State} (t : Ctx) (r : Raise) (hz : Kept z s) : Kept z (State.takeSync s t r) := by
  unfold State.takeSync
  repeat' (with_reducible first
    | assumption | apply State.enterBell_kept | apply State.modArch_kept | apply State.nested_kept | apply Kept.ite
    | apply Kept.foldl | (intro _ _ _) | (intro _ _) | extract_lets | split)

theorem State.takeHere_kept {z s : State} (t : Ctx) (r : Raise) (hz : Kept z s) : Kept z (State.takeHere s t r) := by
  unfold State.takeHere
  repeat' (with_reducible first
    | assumption | apply State.modCtx_kept | apply State.takeSync_kept | apply Kept.ite | apply Kept.foldl
    | (intro _ _ _) | (intro _ _) | extract_lets | split)

theorem State.emptyShadow_kept {z s : State} (t : Ctx) (hz : Kept z s) : Kept z (State.emptyShadow s t) := by
  unfold State.emptyShadow
  repeat' (with_reducible first
    | assumption | apply State.modCtx_kept)

theorem State.cause_kept {z s : State} (t : Ctx) (r : Raise) (hz : Kept z s) : Kept z (State.cause s t r) := by
  unfold State.cause
  repeat' (with_reducible first
    | assumption | apply State.emptyShadow_kept | apply State.modCtx_kept | apply State.takeHere_kept
    | apply Kept.ite | apply Kept.foldl | (intro _ _ _) | (intro _ _) | extract_lets | split)

theorem State.finish_kept {z s : State} (t : Ctx) (fl : Flow) (undo : Arch) (before : Option Shadow) (bar : Bool) (hz : Kept z s) : Kept z (State.finish s t fl undo before bar) := by
  unfold State.finish
  repeat' (with_reducible first
    | assumption | apply State.modCtx_kept | apply Kept.ite | apply Kept.foldl | (intro _ _ _) | (intro _ _)
    | extract_lets | split)

theorem State.undo_kept {z s' : State} (s : State) (t : Ctx) (hz : Kept z s') : Kept z (s'.undo s t) := by
  unfold State.undo
  exact .ite (State.modUnit_kept _ _ (State.modCtx_kept _ _ hz)) hz

theorem State.setLimited_kept {z s : State} (t : Ctx) (b : Bool) (hz : Kept z s) : Kept z (State.setLimited s t b) := by
  unfold State.setLimited
  repeat' (with_reducible first
    | assumption | apply State.modCtx_kept)

theorem State.issue_kept {z s : State} (t : Ctx) (k : InstrKind) (body : State → Res Flow) (hbody : ∀ s, Kept z s → ResKept z (body s)) (hz : Kept z s) : Kept z (State.issue s t k body) := by
  unfold State.issue
  repeat' (with_reducible first
    | assumption | apply hbody | apply State.cause_kept | apply State.fetch_kept | apply State.finish_kept
    | apply State.modArch_kept | apply State.setLimited_kept | apply State.undo_kept | apply Kept.ite
    | apply Kept.foldl | apply ResKept.bind | apply ResKept.ok | apply ResKept.raise | apply ResKept.stall
    | apply ResKept.ite | (intro _ _ _) | (intro _ _) | extract_lets | split | refine Kept.of_ok (by assumption) ?_
    | refine Kept.of_raise (by assumption) ?_ | refine Kept.of_stall (by assumption) ?_)

theorem State.pops_kept {z s : State} (t : Ctx) (n : Nat) (word : Word) (f : State → List Word → Res Flow) (hf : ∀ s x1, Kept z s → ResKept z (f s x1)) (hz : Kept z s) : ResKept z (State.pops s t n word f) := by
  unfold State.pops
  repeat' (with_reducible first
    | assumption | apply State.modArch_kept | apply hf | apply Kept.ite | apply Kept.foldl | apply ResKept.ite
    | apply ResKept.ok | apply ResKept.raise)

theorem State.pushes_kept {z s : State} (t : Ctx) (vs : List Word) (word : Word) (hz : Kept z s) : ResKept z (State.pushes s t vs word) := by
  unfold State.pushes
  repeat' (with_reducible first
    | assumption | apply State.modArch_kept | apply Kept.ite | apply Kept.foldl | apply ResKept.ite
    | apply ResKept.ok | apply ResKept.raise)

theorem State.rpush_kept {z s : State} (t : Ctx) (v : Word) (word : Word) (hz : Kept z s) : ResKept z (State.rpush s t v word) := by
  unfold State.rpush
  repeat' (with_reducible first
    | assumption | apply State.modArch_kept | apply Kept.ite | apply Kept.foldl | apply ResKept.ite
    | apply ResKept.ok | apply ResKept.raise)

theorem State.rpop_kept {z s : State} (t : Ctx) (word : Word) (hz : Kept z s) : ResKept z (State.rpop s t word) := by
  unfold State.rpop
  repeat' (with_reducible first
    | assumption | apply State.modArch_kept | apply Kept.ite | apply Kept.foldl | apply ResKept.ite
    | apply ResKept.ok | apply ResKept.raise | apply ResKept.stall | apply ResKept.bind | (intro _ _ _)
    | (intro _ _) | extract_lets | split)

theorem Res.seq_kept {z : State} {r : Res Unit} (h : ResKept z r) : ResKept z r.seq :=
  h.bind fun _ _ h => .ok h

end Sys2Proof.Machine
end

