-- ==== Sys2Proof/Laws/Kept/Headwater.lean ====
section
/-! SUPPORT. What the operations of Machine/Headwater.lean keep (Laws/Kept.lean). -/

namespace Sys2Proof.Machine

theorem State.endSlice_kept {z s : State} (t : Ctx) (expired : Bool) (hz : Kept z s) : Kept z (State.endSlice s t expired) := by
  unfold State.endSlice
  repeat' (with_reducible first
    | assumption | apply State.modUnit_kept | apply State.modCtx_kept)

theorem State.plainOp_kept {z s : State} (t : Ctx) (op : Nat) (field : BitVec 11) (body : State → Res Flow) (hbody : ∀ s, Kept z s → ResKept z (body s)) (hz : Kept z s) : Kept z (State.plainOp s t op field body) := by
  unfold State.plainOp
  repeat' (with_reducible first
    | assumption | apply State.issue_kept)

theorem State.transferOp_kept {z s : State} (t : Ctx) (op : Nat) (field : BitVec 11) (body : State → Res Flow) (hbody : ∀ s, Kept z s → ResKept z (body s)) (hz : Kept z s) : Kept z (State.transferOp s t op field body) := by
  unfold State.transferOp
  repeat' (with_reducible first
    | assumption | apply State.issue_kept)

theorem State.systemOp_kept {z s : State} (t : Ctx) (op : Nat) (field : BitVec 11) (body : State → Res Flow) (hbody : ∀ s, Kept z s → ResKept z (body s)) (hz : Kept z s) : Kept z (State.systemOp s t op field body) := by
  unfold State.systemOp
  repeat' (with_reducible first
    | assumption | apply State.issue_kept)

theorem State.zeroField_kept {z s : State} (word : Word) (field : BitVec 11) (zero : BitVec 11) (f : State → Res Flow) (hf : ∀ s, Kept z s → ResKept z (f s)) (hz : Kept z s) : ResKept z (State.zeroField s word field zero f) := by
  unfold State.zeroField
  repeat' (with_reducible first
    | assumption | apply hf | apply Kept.ite | apply Kept.foldl | apply ResKept.ite | apply ResKept.ok
    | apply ResKept.raise)

theorem State.pushOp_kept {z s : State} (t : Ctx) (op : Nat) (k : BitVec 11) (v : Word) (hz : Kept z s) : Kept z (State.pushOp s t op k v) := by
  unfold State.pushOp
  repeat' (with_reducible first
    | assumption | apply State.plainOp_kept | apply Res.seq_kept | apply State.pushes_kept | apply Kept.ite
    | apply Kept.foldl | apply ResKept.bind | apply ResKept.ok | apply ResKept.raise | apply ResKept.stall
    | apply ResKept.ite | (intro _ _ _) | (intro _ _))

theorem execLit_kept {z s : State} (t : Ctx) (k : BitVec 11) (hz : Kept z s) : OutKept z (execLit t k s) := by
  unfold execLit
  repeat' (with_reducible first
    | assumption | apply State.pushOp_kept | apply Kept.ite | apply Kept.foldl | apply OutKept.ite
    | apply OutKept.next)

theorem execLitu_kept {z s : State} (t : Ctx) (k : BitVec 11) (hz : Kept z s) : OutKept z (execLitu t k s) := by
  unfold execLitu
  repeat' (with_reducible first
    | assumption | apply State.pushOp_kept | apply Kept.ite | apply Kept.foldl | apply OutKept.ite
    | apply OutKept.next)

theorem execLits_kept {z s : State} (t : Ctx) (k : BitVec 11) (hz : Kept z s) : OutKept z (execLits t k s) := by
  unfold execLits
  repeat' (with_reducible first
    | assumption | apply State.plainOp_kept | apply Res.seq_kept | apply State.pushes_kept | apply State.pops_kept
    | apply Kept.ite | apply Kept.foldl | apply OutKept.ite | apply OutKept.next | apply ResKept.bind
    | apply ResKept.ok | apply ResKept.raise | apply ResKept.stall | apply ResKept.ite | (intro _ _ _) | (intro _ _))

theorem execAddi_kept {z s : State} (t : Ctx) (k : BitVec 11) (hz : Kept z s) : OutKept z (execAddi t k s) := by
  unfold execAddi
  repeat' (with_reducible first
    | assumption | apply State.plainOp_kept | apply Res.seq_kept | apply State.pushes_kept | apply State.pops_kept
    | apply Kept.ite | apply Kept.foldl | apply OutKept.ite | apply OutKept.next | apply ResKept.bind
    | apply ResKept.ok | apply ResKept.raise | apply ResKept.stall | apply ResKept.ite | (intro _ _ _) | (intro _ _))

theorem execBank_kept {z s : State} (t : Ctx) (k : BitVec 11) (hz : Kept z s) : OutKept z (execBank t k s) := by
  unfold execBank
  repeat' (with_reducible first
    | assumption | apply State.zeroField_kept | apply State.plainOp_kept | apply Res.seq_kept
    | apply State.modArch_kept | apply Kept.ite | apply Kept.foldl | apply OutKept.ite | apply OutKept.next
    | apply ResKept.bind | apply ResKept.ok | apply ResKept.raise | apply ResKept.stall | apply ResKept.ite
    | (intro _ _ _) | (intro _ _))

theorem State.loadOp_kept {z s : State} (t : Ctx) (addr : BitVec 18) (word : Word) (hz : Kept z s) : ResKept z (State.loadOp s t addr word) := by
  unfold State.loadOp
  repeat' (with_reducible first
    | assumption | apply Res.seq_kept | apply State.pushes_kept | apply State.load_kept | apply Kept.ite
    | apply Kept.foldl | apply ResKept.ite | apply ResKept.ok | apply ResKept.raise | apply ResKept.stall
    | apply ResKept.bind | (intro _ _ _))

theorem State.storeOp_kept {z s : State} (t : Ctx) (addr : BitVec 18) (word : Word) (hz : Kept z s) : ResKept z (State.storeOp s t addr word) := by
  unfold State.storeOp
  repeat' (with_reducible first
    | assumption | apply Res.seq_kept | apply State.pops_kept | apply State.store_kept | apply Kept.ite
    | apply Kept.foldl | apply ResKept.ite | apply ResKept.ok | apply ResKept.raise | apply ResKept.stall
    | apply ResKept.bind | (intro _ _ _))

theorem State.unitParity_kept {z s : State} (t : Ctx) (p : UnitPart) (hz : Kept z s) : Kept z (State.unitParity s t p) := by
  unfold State.unitParity
  repeat' (with_reducible first
    | assumption | apply State.unitOffline_kept | apply Kept.ite)

theorem execLd_kept {z s : State} (t : Ctx) (a : BitVec 11) (par : Option UnitPart) (hz : Kept z s) : OutKept z (execLd t a par s) := by
  unfold execLd
  repeat' (with_reducible first
    | assumption | apply State.unitParity_kept | apply State.loadOp_kept | apply State.plainOp_kept | apply Kept.ite
    | apply Kept.foldl | apply OutKept.ite | apply OutKept.next | apply ResKept.bind | apply ResKept.ok
    | apply ResKept.raise | apply ResKept.stall | apply ResKept.ite | (intro _ _ _) | (intro _ _) | extract_lets
    | split)

theorem execSt_kept {z s : State} (t : Ctx) (a : BitVec 11) (hz : Kept z s) : OutKept z (execSt t a s) := by
  unfold execSt
  repeat' (with_reducible first
    | assumption | apply State.storeOp_kept | apply State.plainOp_kept | apply Kept.ite | apply Kept.foldl
    | apply OutKept.ite | apply OutKept.next | apply ResKept.bind | apply ResKept.ok | apply ResKept.raise
    | apply ResKept.stall | apply ResKept.ite | (intro _ _ _) | (intro _ _))

theorem execLdx_kept {z s : State} (t : Ctx) (a : BitVec 11) (hz : Kept z s) : OutKept z (execLdx t a s) := by
  unfold execLdx
  repeat' (with_reducible first
    | assumption | apply State.loadOp_kept | apply State.plainOp_kept | apply Kept.ite | apply Kept.foldl
    | apply OutKept.ite | apply OutKept.next | apply ResKept.bind | apply ResKept.ok | apply ResKept.raise
    | apply ResKept.stall | apply ResKept.ite | (intro _ _ _) | (intro _ _))

theorem execStx_kept {z s : State} (t : Ctx) (a : BitVec 11) (hz : Kept z s) : OutKept z (execStx t a s) := by
  unfold execStx
  repeat' (with_reducible first
    | assumption | apply State.storeOp_kept | apply State.plainOp_kept | apply Kept.ite | apply Kept.foldl
    | apply OutKept.ite | apply OutKept.next | apply ResKept.bind | apply ResKept.ok | apply ResKept.raise
    | apply ResKept.stall | apply ResKept.ite | (intro _ _ _) | (intro _ _))

theorem execLdy_kept {z s : State} (t : Ctx) (a : BitVec 11) (hz : Kept z s) : OutKept z (execLdy t a s) := by
  unfold execLdy
  repeat' (with_reducible first
    | assumption | apply State.loadOp_kept | apply State.plainOp_kept | apply Kept.ite | apply Kept.foldl
    | apply OutKept.ite | apply OutKept.next | apply ResKept.bind | apply ResKept.ok | apply ResKept.raise
    | apply ResKept.stall | apply ResKept.ite | (intro _ _ _) | (intro _ _))

theorem execSty_kept {z s : State} (t : Ctx) (a : BitVec 11) (hz : Kept z s) : OutKept z (execSty t a s) := by
  unfold execSty
  repeat' (with_reducible first
    | assumption | apply State.storeOp_kept | apply State.plainOp_kept | apply Kept.ite | apply Kept.foldl
    | apply OutKept.ite | apply OutKept.next | apply ResKept.bind | apply ResKept.ok | apply ResKept.raise
    | apply ResKept.stall | apply ResKept.ite | (intro _ _ _) | (intro _ _))

theorem State.condBranch_kept {z s : State} (t : Ctx) (op : Nat) (o : BitVec 11) (test : Word → Bool) (hz : Kept z s) : Kept z (State.condBranch s t op o test) := by
  unfold State.condBranch
  repeat' (with_reducible first
    | assumption | apply State.transferOp_kept | apply State.pops_kept | apply Kept.ite | apply Kept.foldl
    | apply ResKept.bind | apply ResKept.ok | apply ResKept.raise | apply ResKept.stall | apply ResKept.ite
    | (intro _ _ _) | (intro _ _))

theorem execBr_kept {z s : State} (t : Ctx) (o : BitVec 11) (hz : Kept z s) : OutKept z (execBr t o s) := by
  unfold execBr
  repeat' (with_reducible first
    | assumption | apply State.transferOp_kept | apply Kept.ite | apply Kept.foldl | apply OutKept.ite
    | apply OutKept.next | apply ResKept.bind | apply ResKept.ok | apply ResKept.raise | apply ResKept.stall
    | apply ResKept.ite | (intro _ _ _) | (intro _ _))

theorem execBz_kept {z s : State} (t : Ctx) (o : BitVec 11) (hz : Kept z s) : OutKept z (execBz t o s) := by
  unfold execBz
  repeat' (with_reducible first
    | assumption | apply State.condBranch_kept | apply Kept.ite | apply Kept.foldl | apply OutKept.ite
    | apply OutKept.next)

theorem execBnz_kept {z s : State} (t : Ctx) (o : BitVec 11) (hz : Kept z s) : OutKept z (execBnz t o s) := by
  unfold execBnz
  repeat' (with_reducible first
    | assumption | apply State.condBranch_kept | apply Kept.ite | apply Kept.foldl | apply OutKept.ite
    | apply OutKept.next)

theorem State.callTo_kept {z s : State} (t : Ctx) (target : BitVec 19) (word : Word) (hz : Kept z s) : ResKept z (State.callTo s t target word) := by
  unfold State.callTo
  repeat' (with_reducible first
    | assumption | apply State.rpush_kept | apply Kept.ite | apply Kept.foldl | apply ResKept.ite | apply ResKept.ok
    | apply ResKept.raise | apply ResKept.stall | apply ResKept.bind | (intro _ _ _))

theorem execCall_kept {z s : State} (t : Ctx) (o : BitVec 11) (hz : Kept z s) : OutKept z (execCall t o s) := by
  unfold execCall
  repeat' (with_reducible first
    | assumption | apply State.callTo_kept | apply State.transferOp_kept | apply Kept.ite | apply Kept.foldl
    | apply OutKept.ite | apply OutKept.next | apply ResKept.bind | apply ResKept.ok | apply ResKept.raise
    | apply ResKept.stall | apply ResKept.ite | (intro _ _ _) | (intro _ _))

theorem execRet_kept {z s : State} (t : Ctx) (field : BitVec 11) (hz : Kept z s) : OutKept z (execRet t field s) := by
  unfold execRet
  repeat' (with_reducible first
    | assumption | apply State.zeroField_kept | apply State.transferOp_kept | apply State.rpop_kept | apply Kept.ite
    | apply Kept.foldl | apply OutKept.ite | apply OutKept.next | apply ResKept.bind | apply ResKept.ok
    | apply ResKept.raise | apply ResKept.stall | apply ResKept.ite | (intro _ _ _) | (intro _ _))

theorem execJmpi_kept {z s : State} (t : Ctx) (field : BitVec 11) (hz : Kept z s) : OutKept z (execJmpi t field s) := by
  unfold execJmpi
  repeat' (with_reducible first
    | assumption | apply State.zeroField_kept | apply State.transferOp_kept | apply State.pops_kept | apply Kept.ite
    | apply Kept.foldl | apply OutKept.ite | apply OutKept.next | apply ResKept.bind | apply ResKept.ok
    | apply ResKept.raise | apply ResKept.stall | apply ResKept.ite | (intro _ _ _) | (intro _ _))

theorem execCalli_kept {z s : State} (t : Ctx) (field : BitVec 11) (hz : Kept z s) : OutKept z (execCalli t field s) := by
  unfold execCalli
  repeat' (with_reducible first
    | assumption | apply State.callTo_kept | apply State.zeroField_kept | apply State.transferOp_kept
    | apply State.pops_kept | apply Kept.ite | apply Kept.foldl | apply OutKept.ite | apply OutKept.next
    | apply ResKept.bind | apply ResKept.ok | apply ResKept.raise | apply ResKept.stall | apply ResKept.ite
    | (intro _ _ _) | (intro _ _))

theorem State.brcBody_kept {z s : State} (t : Ctx) (field : BitVec 11) (hz : Kept z s) : ResKept z (State.brcBody s t field) := by
  unfold State.brcBody
  repeat' (with_reducible first
    | assumption | apply State.modUnit_kept | apply State.modCtx_kept | apply Kept.ite | apply Kept.foldl
    | apply ResKept.ite | apply ResKept.ok)

theorem execBrc_kept {z s : State} (t : Ctx) (field : BitVec 11) (hz : Kept z s) : OutKept z (execBrc t field s) := by
  unfold execBrc
  repeat' (with_reducible first
    | assumption | apply State.brcBody_kept | apply State.issue_kept | apply Kept.ite | apply Kept.foldl
    | apply OutKept.ite | apply OutKept.next | (intro _ _ _) | (intro _ _))

theorem State.loopBody_kept {z s : State} (t : Ctx) (n : BitVec 11) (hz : Kept z s) : ResKept z (State.loopBody s t n) := by
  unfold State.loopBody
  repeat' (with_reducible first
    | assumption | apply State.pops_kept | apply State.modArch_kept | apply Kept.ite | apply Kept.foldl
    | apply ResKept.ite | apply ResKept.ok | apply ResKept.raise | apply ResKept.stall | apply ResKept.bind
    | (intro _ _ _))

theorem execLoop_kept {z s : State} (t : Ctx) (n : BitVec 11) (hz : Kept z s) : OutKept z (execLoop t n s) := by
  unfold execLoop
  repeat' (with_reducible first
    | assumption | apply State.loopBody_kept | apply State.transferOp_kept | apply Kept.ite | apply Kept.foldl
    | apply OutKept.ite | apply OutKept.next | apply ResKept.bind | apply ResKept.ok | apply ResKept.raise
    | apply ResKept.stall | apply ResKept.ite | (intro _ _ _) | (intro _ _))

theorem execLeave_kept {z s : State} (t : Ctx) (field : BitVec 11) (hz : Kept z s) : OutKept z (execLeave t field s) := by
  unfold execLeave
  repeat' (with_reducible first
    | assumption | apply State.zeroField_kept | apply State.transferOp_kept | apply State.modArch_kept
    | apply Kept.ite | apply Kept.foldl | apply OutKept.ite | apply OutKept.next | apply ResKept.bind
    | apply ResKept.ok | apply ResKept.raise | apply ResKept.stall | apply ResKept.ite | (intro _ _ _) | (intro _ _))

theorem State.movsElem_kept {z s : State} (t : Ctx) (hz : Kept z s) : ResKept z (State.movsElem s t) := by
  unfold State.movsElem
  repeat' (with_reducible first
    | assumption | apply State.store_kept | apply State.load_kept | apply State.modArch_kept | apply Kept.ite
    | apply Kept.foldl | apply ResKept.ite | apply ResKept.ok | apply ResKept.raise | apply ResKept.stall
    | apply ResKept.bind | (intro _ _ _))

theorem State.fillsElem_kept {z s : State} (t : Ctx) (v : Word) (hz : Kept z s) : ResKept z (State.fillsElem s t v) := by
  unfold State.fillsElem
  repeat' (with_reducible first
    | assumption | apply State.store_kept | apply State.modArch_kept | apply Kept.ite | apply Kept.foldl
    | apply ResKept.ite | apply ResKept.ok | apply ResKept.raise | apply ResKept.stall | apply ResKept.bind
    | (intro _ _ _))

theorem State.crcsElem_kept {z s : State} (t : Ctx) (hz : Kept z s) : ResKept z (State.crcsElem s t) := by
  unfold State.crcsElem
  repeat' (with_reducible first
    | assumption | apply State.load_kept | apply State.modArch_kept | apply Kept.ite | apply Kept.foldl
    | apply ResKept.ite | apply ResKept.ok | apply ResKept.raise | apply ResKept.stall | apply ResKept.bind
    | (intro _ _ _))

theorem State.scansElem_kept {z s : State} (t : Ctx) (v : Word) (stop : Bool → Bool) (hz : Kept z s) : ResKept z (State.scansElem s t v stop) := by
  unfold State.scansElem
  repeat' (with_reducible first
    | assumption | apply State.load_kept | apply State.modArch_kept | apply Kept.ite | apply Kept.foldl
    | apply ResKept.ite | apply ResKept.ok | apply ResKept.raise | apply ResKept.stall | apply ResKept.bind
    | (intro _ _ _))

theorem repeatElems_kept {z s : State} (t : Ctx) {elem : State → Res Bool} {done : State → Bool → Res Flow}
    (he : ∀ s, Kept z s → ResKept z (elem s)) (hd : ∀ s b, Kept z s → ResKept z (done s b)) (k : Nat) (hz : Kept z s) :
    ResKept z (repeatElems t elem done k s) := by
  induction k generalizing s with
  | zero =>
    unfold repeatElems
    split
    · exact hd _ _ hz
    · exact .ok hz
  | succ k ih =>
    unfold repeatElems
    split
    · exact hd _ _ hz
    · have h1 := he s hz
      cases e : elem s with
      | ok s' b =>
        rw [e] at h1
        cases h1 with
        | ok h1 =>
          cases b with
          | true => exact hd _ _ h1
          | false => exact ih h1
      | raise s' r =>
        rw [e] at h1
        cases h1 with
        | raise h1 =>
          dsimp only
          split
          · exact .raise (State.modArch_kept _ _ h1)
          · exact .raise hz
      | stall s' =>
        rw [e] at h1
        cases h1 with
        | stall h1 => exact .ok (State.undo_kept _ _ h1)

theorem State.repsOp_kept {z s : State} (t : Ctx) (hi : BitVec 9) (op : BitVec 2) (body : State → Res Flow) (hbody : ∀ s, Kept z s → ResKept z (body s)) (hz : Kept z s) : Kept z (State.repsOp s t hi op body) := by
  unfold State.repsOp
  repeat' (with_reducible first
    | assumption | apply State.zeroField_kept | apply State.issue_kept | apply hbody | apply Kept.ite
    | apply Kept.foldl | (intro _ _ _) | (intro _ _))

theorem Res.go_kept {z : State} {r : Res Unit} (h : ResKept z r) : ResKept z r.go :=
  h.bind fun _ _ h => .ok h

theorem execRepsMovs_kept {z s : State} (t : Ctx) (hi : BitVec 9) (budget : Nat) (hz : Kept z s) : OutKept z (execRepsMovs t hi budget s) := by
  unfold execRepsMovs
  repeat' (with_reducible first
    | assumption | apply Res.go_kept | apply State.repsOp_kept | apply repeatElems_kept | apply State.movsElem_kept
    | apply Kept.ite | apply Kept.foldl | apply OutKept.ite | apply OutKept.next | apply ResKept.bind
    | apply ResKept.ok | apply ResKept.raise | apply ResKept.stall | apply ResKept.ite | (intro _ _ _) | (intro _ _))

theorem execRepsFills_kept {z s : State} (t : Ctx) (hi : BitVec 9) (budget : Nat) (hz : Kept z s) : OutKept z (execRepsFills t hi budget s) := by
  unfold execRepsFills
  repeat' (with_reducible first
    | assumption | apply Res.go_kept | apply State.repsOp_kept | apply repeatElems_kept | apply State.fillsElem_kept
    | apply State.modArch_kept | apply Kept.ite | apply Kept.foldl | apply OutKept.ite | apply OutKept.next
    | apply ResKept.bind | apply ResKept.ok | apply ResKept.raise | apply ResKept.stall | apply ResKept.ite
    | (intro _ _ _) | (intro _ _) | extract_lets | split)

theorem execRepsCrcs_kept {z s : State} (t : Ctx) (hi : BitVec 9) (budget : Nat) (hz : Kept z s) : OutKept z (execRepsCrcs t hi budget s) := by
  unfold execRepsCrcs
  repeat' (with_reducible first
    | assumption | apply Res.go_kept | apply State.repsOp_kept | apply repeatElems_kept | apply State.crcsElem_kept
    | apply Kept.ite | apply Kept.foldl | apply OutKept.ite | apply OutKept.next | apply ResKept.bind
    | apply ResKept.ok | apply ResKept.raise | apply ResKept.stall | apply ResKept.ite | (intro _ _ _) | (intro _ _))

theorem execRepsScans_kept {z s : State} (t : Ctx) (hi : BitVec 9) (budget : Nat) (hz : Kept z s) : OutKept z (execRepsScans t hi budget s) := by
  unfold execRepsScans
  repeat' (with_reducible first
    | assumption | apply State.repsOp_kept | apply repeatElems_kept | apply State.scansElem_kept
    | apply State.modArch_kept | apply Kept.ite | apply Kept.foldl | apply OutKept.ite | apply OutKept.next
    | apply ResKept.bind | apply ResKept.ok | apply ResKept.raise | apply ResKept.stall | apply ResKept.ite
    | (intro _ _ _) | (intro _ _) | extract_lets | split)

theorem execConf_kept {z s : State} (t : Ctx) (field : BitVec 11) (hz : Kept z s) : OutKept z (execConf t field s) := by
  unfold execConf
  repeat' (with_reducible first
    | assumption | apply State.zeroField_kept | apply Res.seq_kept | apply State.pushes_kept
    | apply State.issue_kept | apply Kept.ite | apply Kept.foldl | apply OutKept.ite | apply OutKept.next
    | apply ResKept.bind | apply ResKept.ok | apply ResKept.raise | apply ResKept.stall | apply ResKept.ite
    | (intro _ _ _) | (intro _ _))

theorem execMode_kept {z s : State} (t : Ctx) (field : BitVec 11) (hz : Kept z s) : OutKept z (execMode t field s) := by
  unfold execMode
  repeat' (with_reducible first
    | assumption | apply State.zeroField_kept | apply State.systemOp_kept | apply State.pops_kept | apply State.emptyShadow_kept
    | apply State.modCtx_kept | apply Kept.ite | apply Kept.foldl | apply OutKept.ite | apply OutKept.next
    | apply ResKept.bind | apply ResKept.ok | apply ResKept.raise | apply ResKept.stall | apply ResKept.ite
    | (intro _ _ _) | (intro _ _) | extract_lets | split)

theorem State.waitBody_kept {z s : State} (t : Ctx) (field : BitVec 11) (v : Word) (hz : Kept z s) : ResKept z (State.waitBody s t field v) := by
  unfold State.waitBody
  repeat' (with_reducible first
    | assumption | apply State.endSlice_kept | apply State.endWait_kept | apply State.modCtx_kept
    | apply State.setCtx_kept | apply Kept.ite | apply Kept.foldl | apply ResKept.ite | apply ResKept.ok)

theorem execWait_kept {z s : State} (t : Ctx) (field : BitVec 11) (hz : Kept z s) : OutKept z (execWait t field s) := by
  unfold execWait
  repeat' (with_reducible first
    | assumption | apply State.waitBody_kept | apply State.emptyShadow_kept | apply State.zeroField_kept
    | apply State.systemOp_kept | apply Kept.ite | apply Kept.foldl | apply OutKept.ite | apply OutKept.next
    | apply ResKept.bind | apply ResKept.ok | apply ResKept.raise | apply ResKept.stall | apply ResKept.ite
    | (intro _ _ _) | (intro _ _) | extract_lets | split)

theorem execYield_kept {z s : State} (t : Ctx) (field : BitVec 11) (hz : Kept z s) : OutKept z (execYield t field s) := by
  unfold execYield
  repeat' (with_reducible first
    | assumption | apply State.emptyShadow_kept | apply State.zeroField_kept | apply State.systemOp_kept
    | apply State.endSlice_kept | apply State.modCtx_kept | apply Kept.ite | apply Kept.foldl | apply OutKept.ite
    | apply OutKept.next | apply ResKept.bind | apply ResKept.ok | apply ResKept.raise | apply ResKept.stall
    | apply ResKept.ite | (intro _ _ _) | (intro _ _))

theorem execFence_kept {z s : State} (t : Ctx) (field : BitVec 11) (hz : Kept z s) : OutKept z (execFence t field s) := by
  unfold execFence
  repeat' (with_reducible first
    | assumption | apply State.zeroField_kept | apply State.systemOp_kept | apply State.drainUnit_kept
    | apply Kept.ite | apply Kept.foldl | apply OutKept.ite | apply OutKept.next | apply ResKept.bind
    | apply ResKept.ok | apply ResKept.raise | apply ResKept.stall | apply ResKept.ite | (intro _ _ _) | (intro _ _))

theorem execRetb_kept {z s : State} (t : Ctx) (field : BitVec 11) (hz : Kept z s) : OutKept z (execRetb t field s) := by
  unfold execRetb
  repeat' (with_reducible first
    | assumption | apply State.zeroField_kept | apply State.systemOp_kept | apply State.modCtx_kept | apply Kept.ite
    | apply Kept.foldl | apply OutKept.ite | apply OutKept.next | apply ResKept.bind | apply ResKept.ok
    | apply ResKept.raise | apply ResKept.stall | apply ResKept.ite | (intro _ _ _) | (intro _ _))

end Sys2Proof.Machine
end

