-- ==== Sys2Proof/Laws/Kept/Short.lean ====
section
/-! SUPPORT. What the operations of Machine/Short.lean keep (Laws/Kept.lean). -/

namespace Sys2Proof.Machine

theorem pureOp_kept {z s : State} (f : Arch → Arch) (t : Ctx) (hz : Kept z s) : ResKept z (pureOp f s t) :=
  .ok (State.modArch_kept t f hz)

theorem opLdi_kept {z s : State} (t : Ctx) (hz : Kept z s) : ResKept z (opLdi s t) := by
  unfold opLdi
  repeat' (with_reducible first
    | assumption | apply State.load_kept | apply State.modArch_kept | apply Kept.ite | apply Kept.foldl
    | apply ResKept.ite | apply ResKept.ok | apply ResKept.raise | apply ResKept.stall | apply ResKept.bind
    | (intro _ _ _))

theorem opSti_kept {z s : State} (t : Ctx) (hz : Kept z s) : ResKept z (opSti s t) := by
  unfold opSti
  repeat' (with_reducible first
    | assumption | apply State.store_kept | apply State.modArch_kept | apply Kept.ite | apply Kept.foldl
    | apply ResKept.ite | apply ResKept.ok | apply ResKept.raise | apply ResKept.stall | apply ResKept.bind
    | (intro _ _ _))

theorem opLdip_kept {z s : State} (t : Ctx) (hz : Kept z s) : ResKept z (opLdip s t) := by
  unfold opLdip
  repeat' (with_reducible first
    | assumption | apply State.load_kept | apply State.modArch_kept | apply Kept.ite | apply Kept.foldl
    | apply ResKept.ite | apply ResKept.ok | apply ResKept.raise | apply ResKept.stall | apply ResKept.bind
    | (intro _ _ _))

theorem opStip_kept {z s : State} (t : Ctx) (hz : Kept z s) : ResKept z (opStip s t) := by
  unfold opStip
  repeat' (with_reducible first
    | assumption | apply State.store_kept | apply State.modArch_kept | apply Kept.ite | apply Kept.foldl
    | apply ResKept.ite | apply ResKept.ok | apply ResKept.raise | apply ResKept.stall | apply ResKept.bind
    | (intro _ _ _))

theorem opMovs_kept {z s : State} (t : Ctx) (hz : Kept z s) : ResKept z (opMovs s t) := by
  unfold opMovs
  repeat' (with_reducible first
    | assumption | apply State.movsElem_kept | apply Kept.ite | apply Kept.foldl | apply ResKept.ite
    | apply ResKept.ok)

theorem opFills_kept {z s : State} (t : Ctx) (hz : Kept z s) : ResKept z (opFills s t) := by
  unfold opFills
  repeat' (with_reducible first
    | assumption | apply State.fillsElem_kept | apply Kept.ite | apply Kept.foldl | apply ResKept.ite
    | apply ResKept.ok)

theorem opCrcs_kept {z s : State} (t : Ctx) (hz : Kept z s) : ResKept z (opCrcs s t) := by
  unfold opCrcs
  repeat' (with_reducible first
    | assumption | apply State.crcsElem_kept | apply Kept.ite | apply Kept.foldl | apply ResKept.ite
    | apply ResKept.ok)

theorem opScans_kept {z s : State} (t : Ctx) (hz : Kept z s) : ResKept z (opScans s t) := by
  unfold opScans
  repeat' (with_reducible first
    | assumption | apply State.scansElem_kept | apply State.modArch_kept | apply Kept.ite | apply Kept.foldl
    | apply ResKept.ite | apply ResKept.ok | apply ResKept.raise | apply ResKept.stall | apply ResKept.bind
    | (intro _ _ _))

theorem State.operand_kept {z s : State} (t : Ctx) (bank : BitVec 7) (p : BitVec 11) (hz : Kept z s) : ResKept z (State.operand s t bank p) := by
  unfold State.operand
  repeat' (with_reducible first
    | assumption | apply State.load_kept)

theorem opMacc_kept {z s : State} (complex : Bool) (t : Ctx) (hz : Kept z s) : ResKept z (opMacc complex s t) := by
  unfold opMacc
  repeat' (with_reducible first
    | assumption | apply State.operand_kept | apply State.modArch_kept | apply Kept.ite | apply Kept.foldl
    | apply ResKept.ite | apply ResKept.ok | apply ResKept.raise | apply ResKept.stall | apply ResKept.bind
    | (intro _ _ _))

theorem opMac_kept {z s : State} (t : Ctx) (hz : Kept z s) : ResKept z (opMac s t) := by
  unfold opMac
  repeat' (with_reducible first
    | assumption | apply opMacc_kept)

theorem opCmac_kept {z s : State} (t : Ctx) (hz : Kept z s) : ResKept z (opCmac s t) := by
  unfold opCmac
  repeat' (with_reducible first
    | assumption | apply opMacc_kept)

theorem shortOp_kept {z s : State} (c : Nat) (t : Ctx) (hz : Kept z s) : ResKept z (shortOp c s t) := by
  unfold shortOp
  split <;> with_reducible first
    | exact pureOp_kept _ t hz | exact opLdi_kept t hz | exact opSti_kept t hz | exact opLdip_kept t hz
    | exact opStip_kept t hz | exact opMovs_kept t hz | exact opFills_kept t hz | exact opCrcs_kept t hz
    | exact opScans_kept t hz | exact opMac_kept t hz | exact opCmac_kept t hz | exact .ok hz

theorem Res.inSlot_kept {z : State} {r : Res Unit} (slot : BitVec 2) (h : ResKept z r) : ResKept z (r.inSlot slot) := by
  cases h with
  | ok h => exact .ok h
  | raise h => exact .raise h
  | stall h => exact .stall h

theorem State.pairBody_kept {z s : State} (t : Ctx) (ca : Nat) (opA : State → Ctx → Res Unit) (cb : Nat) (word : Word) (hopA : ∀ s x1, Kept z s → ResKept z (opA s x1)) (hz : Kept z s) : ResKept z (State.pairBody s t ca opA cb word) := by
  unfold State.pairBody
  repeat' (with_reducible first
    | assumption | apply Res.inSlot_kept | apply shortOp_kept | apply Res.seq_kept | apply hopA | apply Kept.ite
    | apply Kept.foldl | apply ResKept.ite | apply ResKept.ok | apply ResKept.raise | apply ResKept.stall
    | apply ResKept.bind | (intro _ _ _) | (intro _ _) | extract_lets | split | refine Kept.of_ok (by assumption) ?_
    | refine Kept.of_raise (by assumption) ?_ | refine Kept.of_stall (by assumption) ?_
    | refine Kept.of_some (by assumption) ?_ | refine Kept.of_done (by assumption) ?_
    | refine Kept.of_fst (by assumption) ?_ | refine Kept.of_snd (by assumption) ?_ | apply Kept.upd | rfl)

theorem State.pair_kept {z s : State} (t : Ctx) (ca : BitVec 8) (opA : State → Ctx → Res Unit) (b : BitVec 8) (bar : Bool) (hopA : ∀ s x1, Kept z s → ResKept z (opA s x1)) (hz : Kept z s) : Kept z (State.pair s t ca opA b bar) := by
  unfold State.pair
  repeat' (with_reducible first
    | assumption | apply State.pairBody_kept | apply State.issue_kept | apply hopA | apply Kept.ite
    | apply Kept.foldl | (intro _ _ _) | (intro _ _))

theorem State.undefinedOp_kept {z s : State} (t : Ctx) (w : BitVec 18) (hz : Kept z s) : Kept z (State.undefinedOp s t w) := by
  unfold State.undefinedOp
  repeat' (with_reducible first
    | assumption | apply State.issue_kept | apply Kept.ite | apply Kept.foldl | apply ResKept.bind | apply ResKept.ok
    | apply ResKept.raise | apply ResKept.stall | apply ResKept.ite | (intro _ _ _) | (intro _ _))

theorem execNop_kept {z s : State} (t : Ctx) (b : SlotB) (bar : Bool) (hz : Kept z s) : OutKept z (execNop t b bar s) := by
  unfold execNop
  repeat' (with_reducible first
    | assumption | apply State.pair_kept | apply pureOp_kept | apply State.undefinedOp_kept | apply Kept.ite
    | apply Kept.foldl | apply OutKept.ite | apply OutKept.next | exact OutKept.fault | exact OutKept.refused
    | (intro _ _ _) | (intro _ _) | extract_lets | split)

theorem execDup_kept {z s : State} (t : Ctx) (b : BitVec 8) (bar : Bool) (par : Option UnitPart) (hz : Kept z s) : OutKept z (execDup t b bar par s) := by
  unfold execDup
  repeat' (with_reducible first
    | assumption | apply State.pair_kept | apply pureOp_kept | apply State.unitParity_kept | apply Kept.ite
    | apply Kept.foldl | apply OutKept.ite | apply OutKept.next | apply ResKept.bind | apply ResKept.ok
    | apply ResKept.raise | apply ResKept.stall | apply ResKept.ite | (intro _ _ _) | (intro _ _) | extract_lets
    | split)

theorem execDrop_kept {z s : State} (t : Ctx) (b : BitVec 8) (bar : Bool) (hz : Kept z s) : OutKept z (execDrop t b bar s) := by
  unfold execDrop
  repeat' (with_reducible first
    | assumption | apply State.pair_kept | apply pureOp_kept | apply Kept.ite | apply Kept.foldl | apply OutKept.ite
    | apply OutKept.next | apply ResKept.bind | apply ResKept.ok | apply ResKept.raise | apply ResKept.stall
    | apply ResKept.ite | (intro _ _ _))

theorem execSwap_kept {z s : State} (t : Ctx) (b : BitVec 8) (bar : Bool) (hz : Kept z s) : OutKept z (execSwap t b bar s) := by
  unfold execSwap
  repeat' (with_reducible first
    | assumption | apply State.pair_kept | apply pureOp_kept | apply Kept.ite | apply Kept.foldl | apply OutKept.ite
    | apply OutKept.next | apply ResKept.bind | apply ResKept.ok | apply ResKept.raise | apply ResKept.stall
    | apply ResKept.ite | (intro _ _ _))

theorem execOver_kept {z s : State} (t : Ctx) (b : BitVec 8) (bar : Bool) (hz : Kept z s) : OutKept z (execOver t b bar s) := by
  unfold execOver
  repeat' (with_reducible first
    | assumption | apply State.pair_kept | apply pureOp_kept | apply Kept.ite | apply Kept.foldl | apply OutKept.ite
    | apply OutKept.next | apply ResKept.bind | apply ResKept.ok | apply ResKept.raise | apply ResKept.stall
    | apply ResKept.ite | (intro _ _ _))

theorem execRot_kept {z s : State} (t : Ctx) (b : BitVec 8) (bar : Bool) (hz : Kept z s) : OutKept z (execRot t b bar s) := by
  unfold execRot
  repeat' (with_reducible first
    | assumption | apply State.pair_kept | apply pureOp_kept | apply Kept.ite | apply Kept.foldl | apply OutKept.ite
    | apply OutKept.next | apply ResKept.bind | apply ResKept.ok | apply ResKept.raise | apply ResKept.stall
    | apply ResKept.ite | (intro _ _ _))

theorem execNip_kept {z s : State} (t : Ctx) (b : BitVec 8) (bar : Bool) (hz : Kept z s) : OutKept z (execNip t b bar s) := by
  unfold execNip
  repeat' (with_reducible first
    | assumption | apply State.pair_kept | apply pureOp_kept | apply Kept.ite | apply Kept.foldl | apply OutKept.ite
    | apply OutKept.next | apply ResKept.bind | apply ResKept.ok | apply ResKept.raise | apply ResKept.stall
    | apply ResKept.ite | (intro _ _ _))

theorem execTuck_kept {z s : State} (t : Ctx) (b : BitVec 8) (bar : Bool) (hz : Kept z s) : OutKept z (execTuck t b bar s) := by
  unfold execTuck
  repeat' (with_reducible first
    | assumption | apply State.pair_kept | apply pureOp_kept | apply Kept.ite | apply Kept.foldl | apply OutKept.ite
    | apply OutKept.next | apply ResKept.bind | apply ResKept.ok | apply ResKept.raise | apply ResKept.stall
    | apply ResKept.ite | (intro _ _ _))

theorem execPick_kept {z s : State} (t : Ctx) (b : BitVec 8) (bar : Bool) (hz : Kept z s) : OutKept z (execPick t b bar s) := by
  unfold execPick
  repeat' (with_reducible first
    | assumption | apply State.pair_kept | apply pureOp_kept | apply Kept.ite | apply Kept.foldl | apply OutKept.ite
    | apply OutKept.next | apply ResKept.bind | apply ResKept.ok | apply ResKept.raise | apply ResKept.stall
    | apply ResKept.ite | (intro _ _ _))

theorem execTor_kept {z s : State} (t : Ctx) (b : BitVec 8) (bar : Bool) (hz : Kept z s) : OutKept z (execTor t b bar s) := by
  unfold execTor
  repeat' (with_reducible first
    | assumption | apply State.pair_kept | apply pureOp_kept | apply Kept.ite | apply Kept.foldl | apply OutKept.ite
    | apply OutKept.next | apply ResKept.bind | apply ResKept.ok | apply ResKept.raise | apply ResKept.stall
    | apply ResKept.ite | (intro _ _ _))

theorem execFromr_kept {z s : State} (t : Ctx) (b : BitVec 8) (bar : Bool) (hz : Kept z s) : OutKept z (execFromr t b bar s) := by
  unfold execFromr
  repeat' (with_reducible first
    | assumption | apply State.pair_kept | apply pureOp_kept | apply Kept.ite | apply Kept.foldl | apply OutKept.ite
    | apply OutKept.next | apply ResKept.bind | apply ResKept.ok | apply ResKept.raise | apply ResKept.stall
    | apply ResKept.ite | (intro _ _ _))

theorem execRfetch_kept {z s : State} (t : Ctx) (b : BitVec 8) (bar : Bool) (hz : Kept z s) : OutKept z (execRfetch t b bar s) := by
  unfold execRfetch
  repeat' (with_reducible first
    | assumption | apply State.pair_kept | apply pureOp_kept | apply Kept.ite | apply Kept.foldl | apply OutKept.ite
    | apply OutKept.next | apply ResKept.bind | apply ResKept.ok | apply ResKept.raise | apply ResKept.stall
    | apply ResKept.ite | (intro _ _ _))

theorem execRdrop_kept {z s : State} (t : Ctx) (b : BitVec 8) (bar : Bool) (hz : Kept z s) : OutKept z (execRdrop t b bar s) := by
  unfold execRdrop
  repeat' (with_reducible first
    | assumption | apply State.pair_kept | apply pureOp_kept | apply Kept.ite | apply Kept.foldl | apply OutKept.ite
    | apply OutKept.next | apply ResKept.bind | apply ResKept.ok | apply ResKept.raise | apply ResKept.stall
    | apply ResKept.ite | (intro _ _ _))

theorem execAdd_kept {z s : State} (t : Ctx) (b : BitVec 8) (bar : Bool) (hz : Kept z s) : OutKept z (execAdd t b bar s) := by
  unfold execAdd
  repeat' (with_reducible first
    | assumption | apply State.pair_kept | apply pureOp_kept | apply Kept.ite | apply Kept.foldl | apply OutKept.ite
    | apply OutKept.next | apply ResKept.bind | apply ResKept.ok | apply ResKept.raise | apply ResKept.stall
    | apply ResKept.ite | (intro _ _ _))

theorem execSub_kept {z s : State} (t : Ctx) (b : BitVec 8) (bar : Bool) (hz : Kept z s) : OutKept z (execSub t b bar s) := by
  unfold execSub
  repeat' (with_reducible first
    | assumption | apply State.pair_kept | apply pureOp_kept | apply Kept.ite | apply Kept.foldl | apply OutKept.ite
    | apply OutKept.next | apply ResKept.bind | apply ResKept.ok | apply ResKept.raise | apply ResKept.stall
    | apply ResKept.ite | (intro _ _ _))

theorem execNeg_kept {z s : State} (t : Ctx) (b : BitVec 8) (bar : Bool) (hz : Kept z s) : OutKept z (execNeg t b bar s) := by
  unfold execNeg
  repeat' (with_reducible first
    | assumption | apply State.pair_kept | apply pureOp_kept | apply Kept.ite | apply Kept.foldl | apply OutKept.ite
    | apply OutKept.next | apply ResKept.bind | apply ResKept.ok | apply ResKept.raise | apply ResKept.stall
    | apply ResKept.ite | (intro _ _ _))

theorem execInc_kept {z s : State} (t : Ctx) (b : BitVec 8) (bar : Bool) (hz : Kept z s) : OutKept z (execInc t b bar s) := by
  unfold execInc
  repeat' (with_reducible first
    | assumption | apply State.pair_kept | apply pureOp_kept | apply Kept.ite | apply Kept.foldl | apply OutKept.ite
    | apply OutKept.next | apply ResKept.bind | apply ResKept.ok | apply ResKept.raise | apply ResKept.stall
    | apply ResKept.ite | (intro _ _ _))

theorem execDec_kept {z s : State} (t : Ctx) (b : BitVec 8) (bar : Bool) (hz : Kept z s) : OutKept z (execDec t b bar s) := by
  unfold execDec
  repeat' (with_reducible first
    | assumption | apply State.pair_kept | apply pureOp_kept | apply Kept.ite | apply Kept.foldl | apply OutKept.ite
    | apply OutKept.next | apply ResKept.bind | apply ResKept.ok | apply ResKept.raise | apply ResKept.stall
    | apply ResKept.ite | (intro _ _ _))

theorem execMul_kept {z s : State} (t : Ctx) (b : BitVec 8) (bar : Bool) (hz : Kept z s) : OutKept z (execMul t b bar s) := by
  unfold execMul
  repeat' (with_reducible first
    | assumption | apply State.pair_kept | apply pureOp_kept | apply Kept.ite | apply Kept.foldl | apply OutKept.ite
    | apply OutKept.next | apply ResKept.bind | apply ResKept.ok | apply ResKept.raise | apply ResKept.stall
    | apply ResKept.ite | (intro _ _ _))

theorem execMulu_kept {z s : State} (t : Ctx) (b : BitVec 8) (bar : Bool) (hz : Kept z s) : OutKept z (execMulu t b bar s) := by
  unfold execMulu
  repeat' (with_reducible first
    | assumption | apply State.pair_kept | apply pureOp_kept | apply Kept.ite | apply Kept.foldl | apply OutKept.ite
    | apply OutKept.next | apply ResKept.bind | apply ResKept.ok | apply ResKept.raise | apply ResKept.stall
    | apply ResKept.ite | (intro _ _ _))

theorem execMin_kept {z s : State} (t : Ctx) (b : BitVec 8) (bar : Bool) (hz : Kept z s) : OutKept z (execMin t b bar s) := by
  unfold execMin
  repeat' (with_reducible first
    | assumption | apply State.pair_kept | apply pureOp_kept | apply Kept.ite | apply Kept.foldl | apply OutKept.ite
    | apply OutKept.next | apply ResKept.bind | apply ResKept.ok | apply ResKept.raise | apply ResKept.stall
    | apply ResKept.ite | (intro _ _ _))

theorem execMax_kept {z s : State} (t : Ctx) (b : BitVec 8) (bar : Bool) (hz : Kept z s) : OutKept z (execMax t b bar s) := by
  unfold execMax
  repeat' (with_reducible first
    | assumption | apply State.pair_kept | apply pureOp_kept | apply Kept.ite | apply Kept.foldl | apply OutKept.ite
    | apply OutKept.next | apply ResKept.bind | apply ResKept.ok | apply ResKept.raise | apply ResKept.stall
    | apply ResKept.ite | (intro _ _ _))

theorem execAbs_kept {z s : State} (t : Ctx) (b : BitVec 8) (bar : Bool) (hz : Kept z s) : OutKept z (execAbs t b bar s) := by
  unfold execAbs
  repeat' (with_reducible first
    | assumption | apply State.pair_kept | apply pureOp_kept | apply Kept.ite | apply Kept.foldl | apply OutKept.ite
    | apply OutKept.next | apply ResKept.bind | apply ResKept.ok | apply ResKept.raise | apply ResKept.stall
    | apply ResKept.ite | (intro _ _ _))

theorem execAnd_kept {z s : State} (t : Ctx) (b : BitVec 8) (bar : Bool) (hz : Kept z s) : OutKept z (execAnd t b bar s) := by
  unfold execAnd
  repeat' (with_reducible first
    | assumption | apply State.pair_kept | apply pureOp_kept | apply Kept.ite | apply Kept.foldl | apply OutKept.ite
    | apply OutKept.next | apply ResKept.bind | apply ResKept.ok | apply ResKept.raise | apply ResKept.stall
    | apply ResKept.ite | (intro _ _ _))

theorem execOr_kept {z s : State} (t : Ctx) (b : BitVec 8) (bar : Bool) (hz : Kept z s) : OutKept z (execOr t b bar s) := by
  unfold execOr
  repeat' (with_reducible first
    | assumption | apply State.pair_kept | apply pureOp_kept | apply Kept.ite | apply Kept.foldl | apply OutKept.ite
    | apply OutKept.next | apply ResKept.bind | apply ResKept.ok | apply ResKept.raise | apply ResKept.stall
    | apply ResKept.ite | (intro _ _ _))

theorem execXor_kept {z s : State} (t : Ctx) (b : BitVec 8) (bar : Bool) (hz : Kept z s) : OutKept z (execXor t b bar s) := by
  unfold execXor
  repeat' (with_reducible first
    | assumption | apply State.pair_kept | apply pureOp_kept | apply Kept.ite | apply Kept.foldl | apply OutKept.ite
    | apply OutKept.next | apply ResKept.bind | apply ResKept.ok | apply ResKept.raise | apply ResKept.stall
    | apply ResKept.ite | (intro _ _ _))

theorem execNot_kept {z s : State} (t : Ctx) (b : BitVec 8) (bar : Bool) (hz : Kept z s) : OutKept z (execNot t b bar s) := by
  unfold execNot
  repeat' (with_reducible first
    | assumption | apply State.pair_kept | apply pureOp_kept | apply Kept.ite | apply Kept.foldl | apply OutKept.ite
    | apply OutKept.next | apply ResKept.bind | apply ResKept.ok | apply ResKept.raise | apply ResKept.stall
    | apply ResKept.ite | (intro _ _ _))

theorem execShl_kept {z s : State} (t : Ctx) (b : BitVec 8) (bar : Bool) (hz : Kept z s) : OutKept z (execShl t b bar s) := by
  unfold execShl
  repeat' (with_reducible first
    | assumption | apply State.pair_kept | apply pureOp_kept | apply Kept.ite | apply Kept.foldl | apply OutKept.ite
    | apply OutKept.next | apply ResKept.bind | apply ResKept.ok | apply ResKept.raise | apply ResKept.stall
    | apply ResKept.ite | (intro _ _ _))

theorem execShr_kept {z s : State} (t : Ctx) (b : BitVec 8) (bar : Bool) (hz : Kept z s) : OutKept z (execShr t b bar s) := by
  unfold execShr
  repeat' (with_reducible first
    | assumption | apply State.pair_kept | apply pureOp_kept | apply Kept.ite | apply Kept.foldl | apply OutKept.ite
    | apply OutKept.next | apply ResKept.bind | apply ResKept.ok | apply ResKept.raise | apply ResKept.stall
    | apply ResKept.ite | (intro _ _ _))

theorem execAsr_kept {z s : State} (t : Ctx) (b : BitVec 8) (bar : Bool) (hz : Kept z s) : OutKept z (execAsr t b bar s) := by
  unfold execAsr
  repeat' (with_reducible first
    | assumption | apply State.pair_kept | apply pureOp_kept | apply Kept.ite | apply Kept.foldl | apply OutKept.ite
    | apply OutKept.next | apply ResKept.bind | apply ResKept.ok | apply ResKept.raise | apply ResKept.stall
    | apply ResKept.ite | (intro _ _ _))

theorem execRol_kept {z s : State} (t : Ctx) (b : BitVec 8) (bar : Bool) (hz : Kept z s) : OutKept z (execRol t b bar s) := by
  unfold execRol
  repeat' (with_reducible first
    | assumption | apply State.pair_kept | apply pureOp_kept | apply Kept.ite | apply Kept.foldl | apply OutKept.ite
    | apply OutKept.next | apply ResKept.bind | apply ResKept.ok | apply ResKept.raise | apply ResKept.stall
    | apply ResKept.ite | (intro _ _ _))

theorem execShl1_kept {z s : State} (t : Ctx) (b : BitVec 8) (bar : Bool) (hz : Kept z s) : OutKept z (execShl1 t b bar s) := by
  unfold execShl1
  repeat' (with_reducible first
    | assumption | apply State.pair_kept | apply pureOp_kept | apply Kept.ite | apply Kept.foldl | apply OutKept.ite
    | apply OutKept.next | apply ResKept.bind | apply ResKept.ok | apply ResKept.raise | apply ResKept.stall
    | apply ResKept.ite | (intro _ _ _))

theorem execShr1_kept {z s : State} (t : Ctx) (b : BitVec 8) (bar : Bool) (hz : Kept z s) : OutKept z (execShr1 t b bar s) := by
  unfold execShr1
  repeat' (with_reducible first
    | assumption | apply State.pair_kept | apply pureOp_kept | apply Kept.ite | apply Kept.foldl | apply OutKept.ite
    | apply OutKept.next | apply ResKept.bind | apply ResKept.ok | apply ResKept.raise | apply ResKept.stall
    | apply ResKept.ite | (intro _ _ _))

theorem execAsr1_kept {z s : State} (t : Ctx) (b : BitVec 8) (bar : Bool) (hz : Kept z s) : OutKept z (execAsr1 t b bar s) := by
  unfold execAsr1
  repeat' (with_reducible first
    | assumption | apply State.pair_kept | apply pureOp_kept | apply Kept.ite | apply Kept.foldl | apply OutKept.ite
    | apply OutKept.next | apply ResKept.bind | apply ResKept.ok | apply ResKept.raise | apply ResKept.stall
    | apply ResKept.ite | (intro _ _ _))

theorem execEq_kept {z s : State} (t : Ctx) (b : BitVec 8) (bar : Bool) (hz : Kept z s) : OutKept z (execEq t b bar s) := by
  unfold execEq
  repeat' (with_reducible first
    | assumption | apply State.pair_kept | apply pureOp_kept | apply Kept.ite | apply Kept.foldl | apply OutKept.ite
    | apply OutKept.next | apply ResKept.bind | apply ResKept.ok | apply ResKept.raise | apply ResKept.stall
    | apply ResKept.ite | (intro _ _ _))

theorem execLt_kept {z s : State} (t : Ctx) (b : BitVec 8) (bar : Bool) (hz : Kept z s) : OutKept z (execLt t b bar s) := by
  unfold execLt
  repeat' (with_reducible first
    | assumption | apply State.pair_kept | apply pureOp_kept | apply Kept.ite | apply Kept.foldl | apply OutKept.ite
    | apply OutKept.next | apply ResKept.bind | apply ResKept.ok | apply ResKept.raise | apply ResKept.stall
    | apply ResKept.ite | (intro _ _ _))

theorem execUlt_kept {z s : State} (t : Ctx) (b : BitVec 8) (bar : Bool) (hz : Kept z s) : OutKept z (execUlt t b bar s) := by
  unfold execUlt
  repeat' (with_reducible first
    | assumption | apply State.pair_kept | apply pureOp_kept | apply Kept.ite | apply Kept.foldl | apply OutKept.ite
    | apply OutKept.next | apply ResKept.bind | apply ResKept.ok | apply ResKept.raise | apply ResKept.stall
    | apply ResKept.ite | (intro _ _ _))

theorem execZeq_kept {z s : State} (t : Ctx) (b : BitVec 8) (bar : Bool) (hz : Kept z s) : OutKept z (execZeq t b bar s) := by
  unfold execZeq
  repeat' (with_reducible first
    | assumption | apply State.pair_kept | apply pureOp_kept | apply Kept.ite | apply Kept.foldl | apply OutKept.ite
    | apply OutKept.next | apply ResKept.bind | apply ResKept.ok | apply ResKept.raise | apply ResKept.stall
    | apply ResKept.ite | (intro _ _ _))

theorem execZlt_kept {z s : State} (t : Ctx) (b : BitVec 8) (bar : Bool) (hz : Kept z s) : OutKept z (execZlt t b bar s) := by
  unfold execZlt
  repeat' (with_reducible first
    | assumption | apply State.pair_kept | apply pureOp_kept | apply Kept.ite | apply Kept.foldl | apply OutKept.ite
    | apply OutKept.next | apply ResKept.bind | apply ResKept.ok | apply ResKept.raise | apply ResKept.stall
    | apply ResKept.ite | (intro _ _ _))

theorem execCrc_kept {z s : State} (t : Ctx) (b : BitVec 8) (bar : Bool) (hz : Kept z s) : OutKept z (execCrc t b bar s) := by
  unfold execCrc
  repeat' (with_reducible first
    | assumption | apply State.pair_kept | apply pureOp_kept | apply Kept.ite | apply Kept.foldl | apply OutKept.ite
    | apply OutKept.next | apply ResKept.bind | apply ResKept.ok | apply ResKept.raise | apply ResKept.stall
    | apply ResKept.ite | (intro _ _ _))

theorem execPar_kept {z s : State} (t : Ctx) (b : BitVec 8) (bar : Bool) (hz : Kept z s) : OutKept z (execPar t b bar s) := by
  unfold execPar
  repeat' (with_reducible first
    | assumption | apply State.pair_kept | apply pureOp_kept | apply Kept.ite | apply Kept.foldl | apply OutKept.ite
    | apply OutKept.next | apply ResKept.bind | apply ResKept.ok | apply ResKept.raise | apply ResKept.stall
    | apply ResKept.ite | (intro _ _ _))

theorem execBrev_kept {z s : State} (t : Ctx) (b : BitVec 8) (bar : Bool) (hz : Kept z s) : OutKept z (execBrev t b bar s) := by
  unfold execBrev
  repeat' (with_reducible first
    | assumption | apply State.pair_kept | apply pureOp_kept | apply Kept.ite | apply Kept.foldl | apply OutKept.ite
    | apply OutKept.next | apply ResKept.bind | apply ResKept.ok | apply ResKept.raise | apply ResKept.stall
    | apply ResKept.ite | (intro _ _ _))

theorem execLdi_kept {z s : State} (t : Ctx) (b : BitVec 8) (bar : Bool) (hz : Kept z s) : OutKept z (execLdi t b bar s) := by
  unfold execLdi
  repeat' (with_reducible first
    | assumption | apply State.pair_kept | apply opLdi_kept | apply Kept.ite | apply Kept.foldl | apply OutKept.ite
    | apply OutKept.next)

theorem execSti_kept {z s : State} (t : Ctx) (b : BitVec 8) (bar : Bool) (hz : Kept z s) : OutKept z (execSti t b bar s) := by
  unfold execSti
  repeat' (with_reducible first
    | assumption | apply State.pair_kept | apply opSti_kept | apply Kept.ite | apply Kept.foldl | apply OutKept.ite
    | apply OutKept.next)

theorem execLdip_kept {z s : State} (t : Ctx) (b : BitVec 8) (bar : Bool) (hz : Kept z s) : OutKept z (execLdip t b bar s) := by
  unfold execLdip
  repeat' (with_reducible first
    | assumption | apply State.pair_kept | apply opLdip_kept | apply Kept.ite | apply Kept.foldl | apply OutKept.ite
    | apply OutKept.next)

theorem execStip_kept {z s : State} (t : Ctx) (b : BitVec 8) (bar : Bool) (hz : Kept z s) : OutKept z (execStip t b bar s) := by
  unfold execStip
  repeat' (with_reducible first
    | assumption | apply State.pair_kept | apply opStip_kept | apply Kept.ite | apply Kept.foldl | apply OutKept.ite
    | apply OutKept.next)

theorem execMovs_kept {z s : State} (t : Ctx) (b : BitVec 8) (bar : Bool) (hz : Kept z s) : OutKept z (execMovs t b bar s) := by
  unfold execMovs
  repeat' (with_reducible first
    | assumption | apply State.pair_kept | apply opMovs_kept | apply Kept.ite | apply Kept.foldl | apply OutKept.ite
    | apply OutKept.next)

theorem execFills_kept {z s : State} (t : Ctx) (b : BitVec 8) (bar : Bool) (hz : Kept z s) : OutKept z (execFills t b bar s) := by
  unfold execFills
  repeat' (with_reducible first
    | assumption | apply State.pair_kept | apply opFills_kept | apply Kept.ite | apply Kept.foldl
    | apply OutKept.ite | apply OutKept.next)

theorem execCrcs_kept {z s : State} (t : Ctx) (b : BitVec 8) (bar : Bool) (hz : Kept z s) : OutKept z (execCrcs t b bar s) := by
  unfold execCrcs
  repeat' (with_reducible first
    | assumption | apply State.pair_kept | apply opCrcs_kept | apply Kept.ite | apply Kept.foldl | apply OutKept.ite
    | apply OutKept.next)

theorem execScans_kept {z s : State} (t : Ctx) (b : BitVec 8) (bar : Bool) (hz : Kept z s) : OutKept z (execScans t b bar s) := by
  unfold execScans
  repeat' (with_reducible first
    | assumption | apply State.pair_kept | apply opScans_kept | apply Kept.ite | apply Kept.foldl
    | apply OutKept.ite | apply OutKept.next)

theorem execOs_kept {z s : State} (t : Ctx) (k : Fin 8) (b : BitVec 8) (bar : Bool) (hz : Kept z s) : OutKept z (execOs t k b bar s) := by
  unfold execOs
  repeat' (with_reducible first
    | assumption | apply State.pair_kept | apply pureOp_kept | apply Kept.ite | apply Kept.foldl | apply OutKept.ite
    | apply OutKept.next | apply ResKept.bind | apply ResKept.ok | apply ResKept.raise | apply ResKept.stall
    | apply ResKept.ite | (intro _ _ _))

end Sys2Proof.Machine
end

