-- ==== Sys2Proof/Laws/Kept/Riffle.lean ====
section
/-! SUPPORT. What the operations of Machine/Riffle.lean keep (Laws/Kept.lean). -/

namespace Sys2Proof.Machine

theorem execMac_kept {z s : State} (t : Ctx) (b : BitVec 8) (bar : Bool) (par : Option UnitPart) (hz : Kept z s) : OutKept z (execMac t b bar par s) := by
  unfold execMac
  repeat' (with_reducible first
    | assumption | apply State.pair_kept | apply opMac_kept | apply State.unitParity_kept | apply Kept.ite
    | apply Kept.foldl | apply OutKept.ite | apply OutKept.next | (intro _ _ _) | (intro _ _) | extract_lets | split)

theorem execCmac_kept {z s : State} (t : Ctx) (b : BitVec 8) (bar : Bool) (hz : Kept z s) : OutKept z (execCmac t b bar s) := by
  unfold execCmac
  repeat' (with_reducible first
    | assumption | apply State.pair_kept | apply opCmac_kept | apply Kept.ite | apply Kept.foldl | apply OutKept.ite
    | apply OutKept.next)

theorem execClra_kept {z s : State} (t : Ctx) (b : BitVec 8) (bar : Bool) (hz : Kept z s) : OutKept z (execClra t b bar s) := by
  unfold execClra
  repeat' (with_reducible first
    | assumption | apply State.pair_kept | apply pureOp_kept | apply Kept.ite | apply Kept.foldl | apply OutKept.ite
    | apply OutKept.next | apply ResKept.bind | apply ResKept.ok | apply ResKept.raise | apply ResKept.stall
    | apply ResKept.ite | (intro _ _ _))

theorem execRdre_kept {z s : State} (t : Ctx) (b : BitVec 8) (bar : Bool) (hz : Kept z s) : OutKept z (execRdre t b bar s) := by
  unfold execRdre
  repeat' (with_reducible first
    | assumption | apply State.pair_kept | apply pureOp_kept | apply Kept.ite | apply Kept.foldl | apply OutKept.ite
    | apply OutKept.next | apply ResKept.bind | apply ResKept.ok | apply ResKept.raise | apply ResKept.stall
    | apply ResKept.ite | (intro _ _ _))

theorem execRdim_kept {z s : State} (t : Ctx) (b : BitVec 8) (bar : Bool) (hz : Kept z s) : OutKept z (execRdim t b bar s) := by
  unfold execRdim
  repeat' (with_reducible first
    | assumption | apply State.pair_kept | apply pureOp_kept | apply Kept.ite | apply Kept.foldl | apply OutKept.ite
    | apply OutKept.next | apply ResKept.bind | apply ResKept.ok | apply ResKept.raise | apply ResKept.stall
    | apply ResKept.ite | (intro _ _ _))

theorem execWrre_kept {z s : State} (t : Ctx) (b : BitVec 8) (bar : Bool) (hz : Kept z s) : OutKept z (execWrre t b bar s) := by
  unfold execWrre
  repeat' (with_reducible first
    | assumption | apply State.pair_kept | apply pureOp_kept | apply Kept.ite | apply Kept.foldl | apply OutKept.ite
    | apply OutKept.next | apply ResKept.bind | apply ResKept.ok | apply ResKept.raise | apply ResKept.stall
    | apply ResKept.ite | (intro _ _ _))

theorem execWrim_kept {z s : State} (t : Ctx) (b : BitVec 8) (bar : Bool) (hz : Kept z s) : OutKept z (execWrim t b bar s) := by
  unfold execWrim
  repeat' (with_reducible first
    | assumption | apply State.pair_kept | apply pureOp_kept | apply Kept.ite | apply Kept.foldl | apply OutKept.ite
    | apply OutKept.next | apply ResKept.bind | apply ResKept.ok | apply ResKept.raise | apply ResKept.stall
    | apply ResKept.ite | (intro _ _ _))

theorem execNorm_kept {z s : State} (t : Ctx) (b : BitVec 8) (bar : Bool) (hz : Kept z s) : OutKept z (execNorm t b bar s) := by
  unfold execNorm
  repeat' (with_reducible first
    | assumption | apply State.pair_kept | apply pureOp_kept | apply Kept.ite | apply Kept.foldl | apply OutKept.ite
    | apply OutKept.next | apply ResKept.bind | apply ResKept.ok | apply ResKept.raise | apply ResKept.stall
    | apply ResKept.ite | (intro _ _ _))

theorem execExp_kept {z s : State} (t : Ctx) (b : BitVec 8) (bar : Bool) (hz : Kept z s) : OutKept z (execExp t b bar s) := by
  unfold execExp
  repeat' (with_reducible first
    | assumption | apply State.pair_kept | apply pureOp_kept | apply Kept.ite | apply Kept.foldl | apply OutKept.ite
    | apply OutKept.next | apply ResKept.bind | apply ResKept.ok | apply ResKept.raise | apply ResKept.stall
    | apply ResKept.ite | (intro _ _ _))

theorem execBexp_kept {z s : State} (t : Ctx) (b : BitVec 8) (bar : Bool) (hz : Kept z s) : OutKept z (execBexp t b bar s) := by
  unfold execBexp
  repeat' (with_reducible first
    | assumption | apply State.pair_kept | apply pureOp_kept | apply Kept.ite | apply Kept.foldl | apply OutKept.ite
    | apply OutKept.next | apply ResKept.bind | apply ResKept.ok | apply ResKept.raise | apply ResKept.stall
    | apply ResKept.ite | (intro _ _ _))

theorem execRdbx_kept {z s : State} (t : Ctx) (b : BitVec 8) (bar : Bool) (hz : Kept z s) : OutKept z (execRdbx t b bar s) := by
  unfold execRdbx
  repeat' (with_reducible first
    | assumption | apply State.pair_kept | apply pureOp_kept | apply Kept.ite | apply Kept.foldl | apply OutKept.ite
    | apply OutKept.next | apply ResKept.bind | apply ResKept.ok | apply ResKept.raise | apply ResKept.stall
    | apply ResKept.ite | (intro _ _ _))

theorem execRnd_kept {z s : State} (t : Ctx) (b : BitVec 8) (bar : Bool) (hz : Kept z s) : OutKept z (execRnd t b bar s) := by
  unfold execRnd
  repeat' (with_reducible first
    | assumption | apply State.pair_kept | apply pureOp_kept | apply Kept.ite | apply Kept.foldl | apply OutKept.ite
    | apply OutKept.next | apply ResKept.bind | apply ResKept.ok | apply ResKept.raise | apply ResKept.stall
    | apply ResKept.ite | (intro _ _ _))

end Sys2Proof.Machine
end

