-- ==== Sys2Proof/Laws/Kept/Array.lean ====
section
/-! SUPPORT. What the operations of Machine/Array.lean keep (Laws/Kept.lean). -/

namespace Sys2Proof.Machine

theorem State.commitProv_kept {z s : State} (t : Ctx) (hz : Kept z s) : Kept z (State.commitProv s t) := by
  unfold State.commitProv
  repeat' (with_reducible first
    | assumption | apply Kept.ite | apply Kept.foldl | (intro _ _ _) | (intro _ _) | extract_lets | split
    | apply Kept.upd | rfl)

end Sys2Proof.Machine
end

