-- ==== Sys2Proof/Laws/Kept/Sluice.lean ====
section
/-! SUPPORT. What the operations of Machine/Sluice.lean keep (Laws/Kept.lean). -/

namespace Sys2Proof.Machine

theorem State.setOp_kept {z s : State} (t : Ctx) (o : StrandOp) (hz : Kept z s) : Kept z (State.setOp s t o) := by
  unfold State.setOp
  repeat' (with_reducible first
    | assumption | apply State.modCtx_kept)

theorem State.countSteps_kept {z s : State} (t : Ctx) (n : Nat) (hz : Kept z s) : Kept z (State.countSteps s t n) := by
  unfold State.countSteps
  repeat' (with_reducible first
    | assumption | apply State.modStrip_kept | apply Kept.ite | apply Kept.foldl | (intro _ _ _))

theorem State.dropCaptures_kept {z s : State} (t : Ctx) (hz : Kept z s) : Kept z (State.dropCaptures s t) := by
  unfold State.dropCaptures
  repeat' (with_reducible first
    | assumption | apply State.modOutlet_kept | apply Kept.ite | apply Kept.foldl | apply ResKept.bind
    | apply ResKept.ok | apply ResKept.raise | apply ResKept.stall | apply ResKept.ite | (intro _ _ _))

theorem State.abortOp_kept {z s : State} (t : Ctx) (hz : Kept z s) : Kept z (State.abortOp s t) := by
  unfold State.abortOp
  repeat' (with_reducible first
    | assumption | apply State.dropCaptures_kept | apply State.dropProv_kept | apply State.keepSeq_kept
    | apply State.modCtx_kept)

theorem State.countSl_kept {z s : State} (code : Nat) (hz : Kept z s) : Kept z (State.countSl s code) := by
  unfold State.countSl
  repeat' (with_reducible first
    | assumption | apply Kept.ite | apply Kept.foldl | (intro _ _ _) | (intro _ _) | extract_lets | split
    | apply Kept.upd | rfl)

theorem State.opFault_kept {z s : State} (t : Ctx) (code : Nat) (entry : BitVec 11) (sp : Bool) (hz : Kept z s) : Kept z (State.opFault s t code entry sp) := by
  unfold State.opFault
  repeat' (with_reducible first
    | assumption | apply State.abortOp_kept | apply State.haltCtx_kept | apply State.recordCause_kept
    | apply State.takeFree_kept)

theorem State.raiseOp_kept {z s : State} (t : Ctx) (o : StrandOp) (code : Nat) (hz : Kept z s) : Kept z (State.raiseOp s t o code) := by
  unfold State.raiseOp
  repeat' (with_reducible first
    | assumption | apply State.countSl_kept | apply State.opFault_kept | apply State.setOp_kept | apply Kept.ite)

theorem State.opCause_kept {z s : State} (t : Ctx) (r : Raise) (hz : Kept z s) : Kept z (State.opCause s t r) := by
  unfold State.opCause
  repeat' (with_reducible first
    | assumption | apply State.abortOp_kept | apply State.levelEvent_kept | apply State.modCtx_kept
    | apply State.rollAsync_kept)

theorem State.raiseOpCause_kept {z s : State} (t : Ctx) (o : StrandOp) (r : Raise) (hz : Kept z s) : Kept z (State.raiseOpCause s t o r) := by
  unfold State.raiseOpCause
  repeat' (with_reducible first
    | assumption | apply State.opCause_kept | apply State.setOp_kept | apply Kept.ite)

theorem State.unstall_kept {z s : State} (t : Ctx) (o : StrandOp) (hz : Kept z s) : Kept z (State.unstall s t o).1 := by
  unfold State.unstall
  repeat' (with_reducible first
    | assumption | apply State.modStrip_kept | apply Kept.ite | apply Kept.foldl | apply ResKept.bind
    | apply ResKept.ok | apply ResKept.raise | apply ResKept.stall | apply ResKept.ite | (intro _ _ _) | (intro _ _)
    | extract_lets | split | refine Kept.of_ok (by assumption) ?_ | refine Kept.of_raise (by assumption) ?_
    | refine Kept.of_stall (by assumption) ?_ | refine Kept.of_some (by assumption) ?_
    | refine Kept.of_done (by assumption) ?_ | refine Kept.of_fst (by assumption) ?_
    | refine Kept.of_snd (by assumption) ?_ | apply Kept.upd | rfl)

theorem State.stallOp_kept {z s : State} (t : Ctx) (o : StrandOp) (why : Stall) (hz : Kept z s) : Kept z (State.stallOp s t o why) := by
  unfold State.stallOp
  repeat' (with_reducible first
    | assumption | apply State.unstall_kept | apply State.setOp_kept | apply Kept.ite)

theorem State.outleto_kept {z s : State} (t : Ctx) (o : StrandOp) (k : Strip) (capture : Bool) (hz : Kept z s) : Kept z (State.outleto s t o k capture) := by
  unfold State.outleto
  repeat' (with_reducible first
    | assumption | apply State.endBurst_kept | apply State.modOutlet_kept | apply State.raiseOpCause_kept
    | apply Kept.ite)

theorem State.outletAct_kept {z s : State} (t : Ctx) (capture : Bool) (release : Bool) (bits : Strip → Plane) (hz : Kept z s) : Kept z (State.outletAct s t capture release bits) := by
  unfold State.outletAct
  repeat' (with_reducible first
    | assumption | apply State.modOutlet_kept | apply Kept.ite | apply Kept.foldl | (intro _ _ _))

theorem State.readHolds_kept {z s : State} (t : Ctx) (hz : Kept z s) : Kept z (State.readHolds s t) := by
  unfold State.readHolds
  repeat' (with_reducible first
    | assumption | apply State.modInlet_kept | apply Kept.ite | apply Kept.foldl | (intro _ _ _))

theorem State.arrayStep_kept {z s : State} (t : Ctx) (o : StrandOp) (w : MicroWord) (hz : Kept z s) : Kept z (State.arrayStep s t o w).1 := by
  unfold State.arrayStep
  repeat' (with_reducible first
    | assumption | apply State.countSteps_kept | apply State.readHolds_kept | apply Kept.ite | apply Kept.foldl
    | (intro _ _ _) | (intro _ _) | extract_lets | split | refine Kept.of_some (by assumption) ?_
    | refine Kept.of_fst (by assumption) ?_ | refine Kept.of_snd (by assumption) ?_ | apply Kept.upd | rfl)

theorem State.microTick_kept {z s : State} (t : Ctx) (o : StrandOp) (hz : Kept z s) : TickKept z (State.microTick s t o) := by
  unfold State.microTick
  repeat' (with_reducible first
    | assumption | apply State.arrayStep_kept | apply Res.go_kept | apply State.outletAct_kept
    | apply State.outleto_kept | apply State.raiseOp_kept | apply State.setOp_kept | apply State.stallOp_kept
    | apply State.unstall_kept | apply Kept.ite | apply Kept.foldl | apply ResKept.bind | apply ResKept.ok
    | apply ResKept.raise | apply ResKept.stall | apply ResKept.ite | apply TickKept.over | apply TickKept.go
    | apply TickKept.call | apply TickKept.ite | (intro _ _ _) | (intro _ _) | extract_lets | split)

end Sys2Proof.Machine
end

