-- ==== Sys2Proof/Laws/Kept/Rom.lean ====
section
/-! SUPPORT. What the operations of Machine/Rom.lean keep (Laws/Kept.lean). -/

namespace Sys2Proof.Machine

theorem State.romWrite_kept {z s : State} (t : Ctx) (o : StrandOp) (e : Nat) (n : Nat) (cut : Bool) (hz : Kept z s) : Kept z (State.romWrite s t o e n cut).1 := by
  unfold State.romWrite
  repeat' (with_reducible first
    | assumption | apply State.countSteps_kept | apply State.takeFree_kept | apply Kept.ite | apply Kept.foldl
    | (intro _ _ _) | (intro _ _) | extract_lets | split | refine Kept.of_some (by assumption) ?_
    | refine Kept.of_fst (by assumption) ?_ | refine Kept.of_snd (by assumption) ?_ | apply Kept.upd | rfl)

theorem State.romDone_kept {z s : State} (t : Ctx) (o : StrandOp) (hz : Kept z s) : TickKept z (State.romDone s t o) := by
  unfold State.romDone
  repeat' (with_reducible first
    | assumption | apply State.setOp_kept | apply Res.go_kept | apply State.takeFree_kept | apply Kept.ite
    | apply Kept.foldl | apply TickKept.ite | apply ResKept.bind | apply ResKept.ok | apply ResKept.raise
    | apply ResKept.stall | apply ResKept.ite | apply TickKept.over | apply TickKept.go)

theorem State.romInh_kept {z s : State} (t : Ctx) (o : StrandOp) (hz : Kept z s) : TickKept z (State.romInh s t o) := by
  unfold State.romInh
  repeat' (with_reducible first
    | assumption | apply State.countSteps_kept | apply State.raiseOp_kept | apply State.readHolds_kept
    | apply State.romDone_kept | apply State.stallOp_kept | apply State.unstall_kept | apply Kept.ite
    | apply Kept.foldl | apply ResKept.bind | apply ResKept.ok | apply ResKept.raise | apply ResKept.stall
    | apply ResKept.ite | apply TickKept.over | apply TickKept.go | apply TickKept.call | apply TickKept.ite
    | (intro _ _ _) | (intro _ _) | extract_lets | split | refine Kept.of_ok (by assumption) ?_
    | refine Kept.of_raise (by assumption) ?_ | refine Kept.of_stall (by assumption) ?_
    | refine Kept.of_fst (by assumption) ?_ | refine Kept.of_snd (by assumption) ?_
    | refine Kept.of_over (by assumption) ?_ | refine Kept.of_go (by assumption) ?_
    | refine Kept.of_call (by assumption) ?_ | apply Kept.upd | rfl)

theorem State.romOutp_kept {z s : State} (t : Ctx) (o : StrandOp) (hz : Kept z s) : TickKept z (State.romOutp s t o) := by
  unfold State.romOutp
  repeat' (with_reducible first
    | assumption | apply State.countSteps_kept | apply Res.go_kept | apply State.outletAct_kept
    | apply State.outleto_kept | apply State.raiseOp_kept | apply State.romDone_kept | apply State.stallOp_kept
    | apply State.unstall_kept | apply Kept.ite | apply Kept.foldl | apply ResKept.bind | apply ResKept.ok
    | apply ResKept.raise | apply ResKept.stall | apply ResKept.ite | apply TickKept.over | apply TickKept.go
    | apply TickKept.call | apply TickKept.ite | (intro _ _ _) | (intro _ _) | extract_lets | split)

theorem State.romStall_kept {z s : State} (t : Ctx) (o : StrandOp) (h : RomShape) (n : Nat) (hz : Kept z s) : Kept z (State.romStall s t o h n) := by
  unfold State.romStall
  repeat' (with_reducible first
    | assumption | apply State.countSteps_kept | apply State.stallOp_kept | apply State.takeFree_kept
    | apply Kept.ite | apply Kept.foldl | apply ResKept.bind | apply ResKept.ok | apply ResKept.raise
    | apply ResKept.stall | apply ResKept.ite | (intro _ _ _) | (intro _ _) | extract_lets | split
    | refine Kept.of_ok (by assumption) ?_ | refine Kept.of_raise (by assumption) ?_
    | refine Kept.of_stall (by assumption) ?_ | refine Kept.of_fst (by assumption) ?_
    | refine Kept.of_snd (by assumption) ?_ | apply Kept.upd | rfl)

theorem State.romTick_kept {z s : State} (t : Ctx) (o : StrandOp) (hz : Kept z s) : TickKept z (State.romTick s t o) := by
  unfold State.romTick
  repeat' (with_reducible first
    | assumption | apply State.raiseOp_kept | apply State.raiseOpCause_kept | apply State.romDone_kept
    | apply State.romInh_kept | apply State.romOutp_kept | apply State.romStall_kept | apply State.romWrite_kept
    | apply State.unstall_kept | apply Kept.ite | apply Kept.foldl | apply ResKept.bind | apply ResKept.ok
    | apply ResKept.raise | apply ResKept.stall | apply ResKept.ite | apply TickKept.over | apply TickKept.go
    | apply TickKept.call | apply TickKept.ite | (intro _ _ _) | (intro _ _) | extract_lets | split
    | refine Kept.of_ok (by assumption) ?_ | refine Kept.of_raise (by assumption) ?_
    | refine Kept.of_stall (by assumption) ?_ | refine Kept.of_fst (by assumption) ?_
    | refine Kept.of_snd (by assumption) ?_ | refine Kept.of_over (by assumption) ?_
    | refine Kept.of_go (by assumption) ?_ | refine Kept.of_call (by assumption) ?_ | apply Kept.upd | rfl)

theorem State.runOp_kept {z s : State} (t : Ctx) (k : Nat) (o : StrandOp) (hz : Kept z s) :
    Kept z (s.runOp t k o) := by
  induction k generalizing s o with
  | zero => exact State.setOp_kept t o hz
  | succ k ih =>
    unfold State.runOp
    split
    · rename_i e
      exact Kept.of_over e (State.microTick_kept t o hz)
    · rename_i e
      exact ih _ (Kept.of_go e (State.microTick_kept t o hz))
    · rename_i e
      have h1 := Kept.of_call e (State.microTick_kept t o hz)
      split
      · rename_i e
        exact Kept.of_over e (State.romTick_kept t _ h1)
      · rename_i e
        exact ih _ (Kept.of_go e (State.romTick_kept t _ h1))
      · rename_i e
        exact State.setOp_kept t _ (Kept.of_call e (State.romTick_kept t _ h1))

end Sys2Proof.Machine
end

