-- ==== Sys2Proof/Laws/Kept/Strands.lean ====
section
/-! SUPPORT. What the operations of Machine/Strands.lean keep (Laws/Kept.lean). -/

namespace Sys2Proof.Machine

theorem State.saveOutlets_kept {z s : State} (t : Ctx) (hz : Kept z s) : Kept z (State.saveOutlets s t) := by
  unfold State.saveOutlets
  repeat' (with_reducible first
    | assumption | apply State.modOutlet_kept | apply Kept.ite | apply Kept.foldl | (intro _ _ _))

theorem State.parityOp_kept {z s : State} (t : Ctx) (o : StrandOp) (k : Strip) (hz : Kept z s) : Kept z (State.parityOp s t o k) := by
  unfold State.parityOp
  repeat' (with_reducible first
    | assumption | apply State.abortOp_kept | apply State.levelEvent_kept | apply State.romWrite_kept
    | apply State.runOp_kept | apply State.stripOffline_kept | apply State.takeFree_kept | apply Kept.ite)

theorem State.startOp_kept {z s : State} (t : Ctx) (e : BitVec 11) (slots : Vector (BitVec 11) 8) (spec : Bool) (par : Option Strip) (hz : Kept z s) : Kept z (State.startOp s t e slots spec par) := by
  unfold State.startOp
  repeat' (with_reducible first
    | assumption | apply State.parityOp_kept | apply State.saveOutlets_kept | apply State.runOp_kept
    | apply Kept.ite | apply Kept.foldl | apply ResKept.bind | apply ResKept.ok | apply ResKept.raise
    | apply ResKept.stall | apply ResKept.ite | (intro _ _ _) | (intro _ _) | extract_lets | split)

theorem State.nextOp_kept {z s : State} (t : Ctx) (hz : Kept z s) : Kept z (State.nextOp s t) := by
  unfold State.nextOp
  repeat' (with_reducible first
    | assumption | apply State.startOp_kept | apply State.modCtx_kept | apply Kept.ite | apply Kept.foldl
    | apply ResKept.bind | apply ResKept.ok | apply ResKept.raise | apply ResKept.stall | apply ResKept.ite
    | (intro _ _ _) | (intro _ _) | extract_lets | split)

theorem State.resumeOp_kept {z s : State} (t : Ctx) (why : Stall) (hz : Kept z s) : Kept z (State.resumeOp s t why) := by
  unfold State.resumeOp
  repeat' (with_reducible first
    | assumption | apply State.nextOp_kept | apply State.runOp_kept | apply Kept.ite | apply Kept.foldl
    | apply ResKept.bind | apply ResKept.ok | apply ResKept.raise | apply ResKept.stall | apply ResKept.ite
    | (intro _ _ _) | (intro _ _) | extract_lets | split)

theorem State.goOnOp_kept {z s : State} (t : Ctx) (hz : Kept z s) : Kept z (State.goOnOp s t) := by
  unfold State.goOnOp
  repeat' (with_reducible first
    | assumption | apply State.nextOp_kept | apply State.runOp_kept | apply Kept.ite | apply Kept.foldl
    | apply ResKept.bind | apply ResKept.ok | apply ResKept.raise | apply ResKept.stall | apply ResKept.ite
    | (intro _ _ _) | (intro _ _) | extract_lets | split)

theorem State.strandBody_kept {z s : State} (t : Ctx) (e : BitVec 11) (par : Option Strip) (hz : Kept z s) : ResKept z (State.strandBody s t e par) := by
  unfold State.strandBody
  repeat' (with_reducible first
    | assumption | apply State.startOp_kept | apply Res.seq_kept | apply State.modCtx_kept | apply Kept.ite
    | apply Kept.foldl | apply ResKept.ite | apply ResKept.ok | apply ResKept.raise | apply ResKept.stall
    | apply ResKept.bind | (intro _ _ _) | (intro _ _) | extract_lets | split | refine Kept.of_ok (by assumption) ?_
    | refine Kept.of_raise (by assumption) ?_ | refine Kept.of_stall (by assumption) ?_
    | refine Kept.of_some (by assumption) ?_ | refine Kept.of_done (by assumption) ?_
    | refine Kept.of_fst (by assumption) ?_ | refine Kept.of_snd (by assumption) ?_ | apply Kept.upd | rfl)

theorem State.strand_kept {z s : State} (t : Ctx) (e : BitVec 11) (par : Option Strip) (hz : Kept z s) : Kept z (State.strand s t e par) := by
  unfold State.strand
  repeat' (with_reducible first
    | assumption | apply State.strandBody_kept | apply State.issue_kept | apply Kept.ite | apply Kept.foldl
    | (intro _ _ _) | (intro _ _))

theorem execStrandOpenRegion_kept {z s : State} (t : Ctx) (e : BitVec 11) (par : Option Strip) (hz : Kept z s) : OutKept z (execStrandOpenRegion t e par s) := by
  unfold execStrandOpenRegion
  repeat' (with_reducible first
    | assumption | apply State.strand_kept | apply Kept.ite | apply Kept.foldl | apply OutKept.ite
    | apply OutKept.next)

theorem execCopy_kept {z s : State} (t : Ctx) (par : Option Strip) (hz : Kept z s) : OutKept z (execCopy t par s) := by
  unfold execCopy
  repeat' (with_reducible first
    | assumption | apply State.strand_kept | apply Kept.ite | apply Kept.foldl | apply OutKept.ite
    | apply OutKept.next)

theorem execRomNot_kept {z s : State} (t : Ctx) (par : Option Strip) (hz : Kept z s) : OutKept z (execRomNot t par s) := by
  unfold execRomNot
  repeat' (with_reducible first
    | assumption | apply State.strand_kept | apply Kept.ite | apply Kept.foldl | apply OutKept.ite
    | apply OutKept.next)

theorem execRomAnd_kept {z s : State} (t : Ctx) (par : Option Strip) (hz : Kept z s) : OutKept z (execRomAnd t par s) := by
  unfold execRomAnd
  repeat' (with_reducible first
    | assumption | apply State.strand_kept | apply Kept.ite | apply Kept.foldl | apply OutKept.ite
    | apply OutKept.next)

theorem execRomOr_kept {z s : State} (t : Ctx) (par : Option Strip) (hz : Kept z s) : OutKept z (execRomOr t par s) := by
  unfold execRomOr
  repeat' (with_reducible first
    | assumption | apply State.strand_kept | apply Kept.ite | apply Kept.foldl | apply OutKept.ite
    | apply OutKept.next)

theorem execRomXor_kept {z s : State} (t : Ctx) (par : Option Strip) (hz : Kept z s) : OutKept z (execRomXor t par s) := by
  unfold execRomXor
  repeat' (with_reducible first
    | assumption | apply State.strand_kept | apply Kept.ite | apply Kept.foldl | apply OutKept.ite
    | apply OutKept.next)

theorem execSet_kept {z s : State} (t : Ctx) (par : Option Strip) (hz : Kept z s) : OutKept z (execSet t par s) := by
  unfold execSet
  repeat' (with_reducible first
    | assumption | apply State.strand_kept | apply Kept.ite | apply Kept.foldl | apply OutKept.ite
    | apply OutKept.next)

theorem execClr_kept {z s : State} (t : Ctx) (par : Option Strip) (hz : Kept z s) : OutKept z (execClr t par s) := by
  unfold execClr
  repeat' (with_reducible first
    | assumption | apply State.strand_kept | apply Kept.ite | apply Kept.foldl | apply OutKept.ite
    | apply OutKept.next)

theorem execShn_kept {z s : State} (t : Ctx) (par : Option Strip) (hz : Kept z s) : OutKept z (execShn t par s) := by
  unfold execShn
  repeat' (with_reducible first
    | assumption | apply State.strand_kept | apply Kept.ite | apply Kept.foldl | apply OutKept.ite
    | apply OutKept.next)

theorem execShe_kept {z s : State} (t : Ctx) (par : Option Strip) (hz : Kept z s) : OutKept z (execShe t par s) := by
  unfold execShe
  repeat' (with_reducible first
    | assumption | apply State.strand_kept | apply Kept.ite | apply Kept.foldl | apply OutKept.ite
    | apply OutKept.next)

theorem execShs_kept {z s : State} (t : Ctx) (par : Option Strip) (hz : Kept z s) : OutKept z (execShs t par s) := by
  unfold execShs
  repeat' (with_reducible first
    | assumption | apply State.strand_kept | apply Kept.ite | apply Kept.foldl | apply OutKept.ite
    | apply OutKept.next)

theorem execShw_kept {z s : State} (t : Ctx) (par : Option Strip) (hz : Kept z s) : OutKept z (execShw t par s) := by
  unfold execShw
  repeat' (with_reducible first
    | assumption | apply State.strand_kept | apply Kept.ite | apply Kept.foldl | apply OutKept.ite
    | apply OutKept.next)

theorem execRomAdd_kept {z s : State} (t : Ctx) (par : Option Strip) (hz : Kept z s) : OutKept z (execRomAdd t par s) := by
  unfold execRomAdd
  repeat' (with_reducible first
    | assumption | apply State.strand_kept | apply Kept.ite | apply Kept.foldl | apply OutKept.ite
    | apply OutKept.next)

theorem execSubc_kept {z s : State} (t : Ctx) (par : Option Strip) (hz : Kept z s) : OutKept z (execSubc t par s) := by
  unfold execSubc
  repeat' (with_reducible first
    | assumption | apply State.strand_kept | apply Kept.ite | apply Kept.foldl | apply OutKept.ite
    | apply OutKept.next)

theorem execRomSub_kept {z s : State} (t : Ctx) (par : Option Strip) (hz : Kept z s) : OutKept z (execRomSub t par s) := by
  unfold execRomSub
  repeat' (with_reducible first
    | assumption | apply State.strand_kept | apply Kept.ite | apply Kept.foldl | apply OutKept.ite
    | apply OutKept.next)

theorem execCmpc_kept {z s : State} (t : Ctx) (par : Option Strip) (hz : Kept z s) : OutKept z (execCmpc t par s) := by
  unfold execCmpc
  repeat' (with_reducible first
    | assumption | apply State.strand_kept | apply Kept.ite | apply Kept.foldl | apply OutKept.ite
    | apply OutKept.next)

theorem execCmp_kept {z s : State} (t : Ctx) (par : Option Strip) (hz : Kept z s) : OutKept z (execCmp t par s) := by
  unfold execCmp
  repeat' (with_reducible first
    | assumption | apply State.strand_kept | apply Kept.ite | apply Kept.foldl | apply OutKept.ite
    | apply OutKept.next)

theorem execMaxc_kept {z s : State} (t : Ctx) (par : Option Strip) (hz : Kept z s) : OutKept z (execMaxc t par s) := by
  unfold execMaxc
  repeat' (with_reducible first
    | assumption | apply State.strand_kept | apply Kept.ite | apply Kept.foldl | apply OutKept.ite
    | apply OutKept.next)

theorem execRomMul_kept {z s : State} (t : Ctx) (par : Option Strip) (hz : Kept z s) : OutKept z (execRomMul t par s) := by
  unfold execRomMul
  repeat' (with_reducible first
    | assumption | apply State.strand_kept | apply Kept.ite | apply Kept.foldl | apply OutKept.ite
    | apply OutKept.next)

theorem execAny_kept {z s : State} (t : Ctx) (par : Option Strip) (hz : Kept z s) : OutKept z (execAny t par s) := by
  unfold execAny
  repeat' (with_reducible first
    | assumption | apply State.strand_kept | apply Kept.ite | apply Kept.foldl | apply OutKept.ite
    | apply OutKept.next)

theorem execInh_kept {z s : State} (t : Ctx) (par : Option Strip) (hz : Kept z s) : OutKept z (execInh t par s) := by
  unfold execInh
  repeat' (with_reducible first
    | assumption | apply State.strand_kept | apply Kept.ite | apply Kept.foldl | apply OutKept.ite
    | apply OutKept.next)

theorem execOutp_kept {z s : State} (t : Ctx) (par : Option Strip) (hz : Kept z s) : OutKept z (execOutp t par s) := by
  unfold execOutp
  repeat' (with_reducible first
    | assumption | apply State.strand_kept | apply Kept.ite | apply Kept.foldl | apply OutKept.ite
    | apply OutKept.next)

theorem execDec128_kept {z s : State} (t : Ctx) (par : Option Strip) (hz : Kept z s) : OutKept z (execDec128 t par s) := by
  unfold execDec128
  repeat' (with_reducible first
    | assumption | apply State.strand_kept | apply Kept.ite | apply Kept.foldl | apply OutKept.ite
    | apply OutKept.next)

theorem execScale_kept {z s : State} (t : Ctx) (par : Option Strip) (hz : Kept z s) : OutKept z (execScale t par s) := by
  unfold execScale
  repeat' (with_reducible first
    | assumption | apply State.strand_kept | apply Kept.ite | apply Kept.foldl | apply OutKept.ite
    | apply OutKept.next)

theorem execFft8k_kept {z s : State} (t : Ctx) (par : Option Strip) (hz : Kept z s) : OutKept z (execFft8k t par s) := by
  unfold execFft8k
  repeat' (with_reducible first
    | assumption | apply State.strand_kept | apply Kept.ite | apply Kept.foldl | apply OutKept.ite
    | apply OutKept.next)

theorem execMagsq_kept {z s : State} (t : Ctx) (par : Option Strip) (hz : Kept z s) : OutKept z (execMagsq t par s) := by
  unfold execMagsq
  repeat' (with_reducible first
    | assumption | apply State.strand_kept | apply Kept.ite | apply Kept.foldl | apply OutKept.ite
    | apply OutKept.next)

theorem execEnvdm_kept {z s : State} (t : Ctx) (par : Option Strip) (hz : Kept z s) : OutKept z (execEnvdm t par s) := by
  unfold execEnvdm
  repeat' (with_reducible first
    | assumption | apply State.strand_kept | apply Kept.ite | apply Kept.foldl | apply OutKept.ite
    | apply OutKept.next)

theorem execResamp_kept {z s : State} (t : Ctx) (par : Option Strip) (hz : Kept z s) : OutKept z (execResamp t par s) := by
  unfold execResamp
  repeat' (with_reducible first
    | assumption | apply State.strand_kept | apply Kept.ite | apply Kept.foldl | apply OutKept.ite
    | apply OutKept.next)

theorem execSelftest_kept {z s : State} (t : Ctx) (k : Fin 16) (par : Option Strip) (hz : Kept z s) : OutKept z (execSelftest t k par s) := by
  unfold execSelftest
  repeat' (with_reducible first
    | assumption | apply State.strand_kept | apply Kept.ite | apply Kept.foldl | apply OutKept.ite
    | apply OutKept.next)

theorem State.settle_kept {z s : State} (t : Ctx) (hz : Kept z s) : Kept z (State.settle s t) := by
  unfold State.settle
  repeat' (with_reducible first
    | assumption | apply State.modCtx_kept)

theorem State.commitShift_kept {z s : State} (t : Ctx) (readHold : Bool) (hz : Kept z s) : Kept z (State.commitShift s t readHold) := by
  unfold State.commitShift
  repeat' (with_reducible first
    | assumption | apply State.modOutlet_kept | apply State.modInlet_kept | apply Kept.ite | apply Kept.foldl
    | apply ResKept.bind | apply ResKept.ok | apply ResKept.raise | apply ResKept.stall | apply ResKept.ite
    | (intro _ _ _))

theorem State.endOp_kept {z s : State} (t : Ctx) (o : StrandOp) (hz : Kept z s) : Kept z (State.endOp s t o) := by
  unfold State.endOp
  repeat' (with_reducible first
    | assumption | apply State.commitProv_kept | apply State.commitShift_kept | apply State.keepSeq_kept
    | apply State.levelEvent_kept | apply State.modCtx_kept | apply State.nextOp_kept | apply State.settle_kept
    | apply Kept.ite)

theorem execStrandOpEnd_kept {z s : State} (t : Ctx) (hz : Kept z s) : OutKept z (execStrandOpEnd t s) := by
  unfold execStrandOpEnd
  repeat' (with_reducible first
    | assumption | apply State.endOp_kept | apply Kept.ite | apply Kept.foldl | apply OutKept.ite
    | apply OutKept.next | apply ResKept.bind | apply ResKept.ok | apply ResKept.raise | apply ResKept.stall
    | apply ResKept.ite | (intro _ _ _) | (intro _ _) | extract_lets | split)

theorem State.showResult_kept {z s : State} (t : Ctx) (r : ConfResult) (hz : Kept z s) : Kept z (State.showResult s t r) := by
  unfold State.showResult
  repeat' (with_reducible first
    | assumption | apply State.modStrip_kept | apply Kept.ite | apply Kept.foldl | (intro _ _ _))

theorem execConfluenceResult_kept {z s : State} (t : Ctx) (hz : Kept z s) : OutKept z (execConfluenceResult t s) := by
  unfold execConfluenceResult
  repeat' (with_reducible first
    | assumption | apply State.showResult_kept | apply State.settle_kept | apply State.levelEvent_kept
    | apply State.modCtx_kept | apply Kept.ite | apply Kept.foldl | apply OutKept.ite | apply OutKept.next
    | apply ResKept.bind | apply ResKept.ok | apply ResKept.raise | apply ResKept.stall | apply ResKept.ite
    | (intro _ _ _) | (intro _ _) | extract_lets | split)

theorem State.specRight_kept {z s : State} (t : Ctx) (sp : Spec) (hz : Kept z s) : Kept z (State.specRight s t sp) := by
  unfold State.specRight
  repeat' (with_reducible first
    | assumption | apply State.commitProv_kept | apply State.commitStores_kept | apply State.modCtx_kept
    | apply State.opCause_kept | apply State.opFault_kept | apply State.resumeOp_kept | apply State.takeHere_kept
    | apply Kept.ite | apply Kept.foldl | apply ResKept.bind | apply ResKept.ok | apply ResKept.raise
    | apply ResKept.stall | apply ResKept.ite | (intro _ _ _) | (intro _ _) | extract_lets | split)

theorem execSpeculationResolve_kept {z s : State} (t : Ctx) (hz : Kept z s) : OutKept z (execSpeculationResolve t s) := by
  unfold execSpeculationResolve
  repeat' (with_reducible first
    | assumption | apply State.specRight_kept | apply State.rollBack_kept | apply State.modUnit_kept
    | apply Kept.ite | apply Kept.foldl | apply OutKept.ite | apply OutKept.next | (intro _ _ _) | (intro _ _)
    | extract_lets | split)

theorem execShiftAbandon_kept {z s : State} (t : Ctx) (hz : Kept z s) : OutKept z (execShiftAbandon t s) := by
  unfold execShiftAbandon
  repeat' (with_reducible first
    | assumption | apply State.unstall_kept | apply State.abortOp_kept | apply State.modStrip_kept
    | apply State.modUnit_kept | apply State.modCtx_kept | apply Kept.ite | apply Kept.foldl | apply OutKept.ite
    | apply OutKept.next | apply ResKept.bind | apply ResKept.ok | apply ResKept.raise | apply ResKept.stall
    | apply ResKept.ite | (intro _ _ _) | (intro _ _) | extract_lets | split)

theorem State.readCopy_kept {z s : State} (ecc : Ecc) (hz : Kept z s) : Kept z (State.readCopy s ecc).2 := by
  unfold State.readCopy
  repeat' (with_reducible first
    | assumption | apply State.forward_kept | apply State.readsAt_kept | apply State.takeFree_kept)

theorem State.reloadWord_kept {z s : State} (n : UnitId) (hz : Kept z s) : Kept z (State.reloadWord s n) := by
  unfold State.reloadWord
  repeat' (with_reducible first
    | assumption | apply State.countFault_kept | apply Kept.ite | apply Kept.foldl | (intro _ _ _) | (intro _ _)
    | extract_lets | split | apply Kept.upd | rfl)

theorem State.copyLost_kept {z s : State} (n : UnitId) (a : BitVec 12) (hz : Kept z s) : Kept z (State.copyLost s n a) := by
  unfold State.copyLost
  repeat' (with_reducible first
    | assumption | apply State.haltCtx_kept | apply State.recordCause_kept | apply State.takeFault_kept
    | apply State.takeFree_kept | apply Kept.ite | apply Kept.foldl | (intro _ _ _) | (intro _ _) | extract_lets
    | split | refine Kept.of_some (by assumption) ?_ | refine Kept.of_fst (by assumption) ?_
    | refine Kept.of_snd (by assumption) ?_ | apply Kept.upd | rfl)

theorem execSluiceParityReload_kept {z s : State} (n : UnitId) (addr : BitVec 12) (ecc : Ecc) (hz : Kept z s) : OutKept z (execSluiceParityReload n addr ecc s) := by
  unfold execSluiceParityReload
  repeat' (with_reducible first
    | assumption | apply State.copyLost_kept | apply State.readCopy_kept | apply State.reloadWord_kept
    | apply Kept.ite | apply Kept.foldl | apply OutKept.ite | apply OutKept.next | exact OutKept.fault
    | exact OutKept.refused | (intro _ _ _) | (intro _ _) | extract_lets | split)

end Sys2Proof.Machine
end

