-- ==== Sys2Proof/Laws/Kept/Settings.lean ====
section
/-! SUPPORT. What the operations of Machine/Settings.lean keep (Laws/Kept.lean). -/

namespace Sys2Proof.Machine

theorem State.retarget_kept {z s : State}  (hz : Kept z s) : Kept z (State.retarget s) := by
  unfold State.retarget
  repeat' (with_reducible first
    | assumption | apply Kept.ite | apply Kept.foldl | (intro _ _ _) | (intro _ _) | extract_lets | split
    | apply Kept.upd | rfl)

end Sys2Proof.Machine
end

