-- ==== Sys2Proof/Laws/Kept/Braid.lean ====
section
/-! SUPPORT. What the operations of Machine/Braid.lean keep (Laws/Kept.lean). -/

namespace Sys2Proof.Machine

theorem State.inletU_kept {z s : State} (k : Strip) (hz : Kept z s) : Kept z (State.inletU s k) := by
  unfold State.inletU
  repeat' (with_reducible first
    | assumption | apply State.signal_kept | apply State.flag_kept | apply Kept.ite | apply Kept.foldl
    | (intro _ _ _) | (intro _ _) | extract_lets | split)

theorem State.completeInlet_kept {z s : State} (k : Strip) (hz : Kept z s) : Kept z (s.completeInlet k) := by
  unfold State.completeInlet
  extract_lets i owner full empty s1 p s2 s3 s4 s5
  have h4 : Kept z s4 := State.modInlet_kept _ _ (State.modStrip_kept _ _ (Kept.upd hz rfl rfl rfl))
  have h5 : Kept z s5 := by
    have e : s5 = if full then
          (s.modInlet k (fun i => empty { i with lost := satInc i.lost, resumed := if i.resumed = 2 then 1 else i.resumed })).inletU k
        else match owner with
          | some t => if p.sijump then (if p.settle then s4.flag t 5 else s4).flag t 6
              else if p.settle then s4.flag t 5 else s4
          | none => s4 := rfl
    rw [e]
    clear_value s4 owner
    split
    · exact State.inletU_kept _ (State.modInlet_kept _ _ hz)
    · cases owner with
      | none => exact h4
      | some t =>
        have h6 : Kept z (if p.settle then s4.flag t 5 else s4) := .ite (State.flag_kept _ _ h4) h4
        exact .ite (State.flag_kept _ _ h6) h6
  clear_value s5 owner
  cases owner with
  | none => exact h5
  | some t => exact State.resumeOp_kept _ _ (State.event_kept _ _ h5)

theorem State.pushBit_kept {z s : State} (k : Strip) (si : BitVec 64) (b : Bool) (f : BitFlags) (hz : Kept z s) : Kept z (State.pushBit s k si b f) := by
  unfold State.pushBit
  repeat' (with_reducible first
    | assumption | apply State.completeInlet_kept | apply State.modInlet_kept | apply Kept.ite)

theorem State.pushSample_kept {z s : State} (k : Strip) (si : BitVec 64) (b : Bool) (f : BitFlags) (hz : Kept z s) : Kept z (State.pushSample s k si b f) := by
  unfold State.pushSample
  repeat' (with_reducible first
    | assumption | apply State.completeInlet_kept | apply State.modInlet_kept | apply State.pushBit_kept
    | apply Kept.ite)

theorem execInletBufferComplete_kept {z s : State} (k : Strip) (hz : Kept z s) : OutKept z (execInletBufferComplete k s) := by
  unfold execInletBufferComplete
  repeat' (with_reducible first
    | assumption | apply State.completeInlet_kept | apply Kept.ite | apply Kept.foldl | apply OutKept.ite
    | apply OutKept.next)

theorem State.writeLoad_kept {z s : State} (k : Strip) (v : Word) (hz : Kept z s) : WriteKept z (State.writeLoad s k v) := by
  unfold State.writeLoad
  repeat' (with_reducible first
    | assumption | apply State.pushBit_kept | apply State.completeInlet_kept | apply State.cause_kept
    | apply Kept.ite | apply Kept.foldl | apply WriteKept.ite | apply WriteKept.done | exact WriteKept.refused
    | exact WriteKept.cause | (intro _ _ _))

theorem State.writeOutctl_kept {z s : State} (t : Ctx) (k : Strip) (v : Word) (hz : Kept z s) : WriteKept z (State.writeOutctl s t k v) := by
  unfold State.writeOutctl
  repeat' (with_reducible first
    | assumption | apply State.modOutlet_kept | apply Kept.ite | apply Kept.foldl | apply WriteKept.ite
    | apply WriteKept.done | exact WriteKept.refused)

theorem State.writeInOut_kept {z s : State} (t : Ctx) (k : Strip) (r : Nat) (v : Word) (hz : Kept z s) : WriteKept z (State.writeInOut s t k r v) := by
  unfold State.writeInOut
  repeat' (with_reducible first
    | assumption | apply State.writeOutctl_kept | apply State.writeLoad_kept | apply State.modOutlet_kept
    | apply State.modInlet_kept | apply Kept.ite | apply Kept.foldl | apply WriteKept.ite | apply WriteKept.done
    | exact WriteKept.refused | exact WriteKept.cause | (intro _ _ _) | (intro _ _) | extract_lets | split)

theorem State.writeStrip_kept {z s : State} (k : Strip) (r : Nat) (v : Word) (hz : Kept z s) : WriteKept z (State.writeStrip s k r v) := by
  unfold State.writeStrip
  repeat' (with_reducible first
    | assumption | apply State.modStrip_kept | apply Kept.ite | apply Kept.foldl | apply WriteKept.ite
    | apply WriteKept.done)

theorem State.sendPacket_kept {z s : State} (k : Strip) (t : Ctx) (q : BitVec 4) (p : Phys) (b : Plane) (hz : Kept z s) : Kept z (State.sendPacket s k t q p b) := by
  unfold State.sendPacket
  repeat' (with_reducible first
    | assumption | apply State.sendRequest_kept)

theorem execOutletSend_kept {z s : State} (k : Strip) (hz : Kept z s) : OutKept z (execOutletSend k s) := by
  unfold execOutletSend
  repeat' (with_reducible first
    | assumption | apply State.modOutlet_kept | apply State.raiseAsync_kept | apply State.resumeOp_kept
    | apply State.sendPacket_kept | apply Kept.ite | apply Kept.foldl | apply ResKept.bind | apply ResKept.ok
    | apply ResKept.raise | apply ResKept.stall | apply ResKept.ite | apply OutKept.ite | apply OutKept.next
    | exact OutKept.fault | exact OutKept.refused | (intro _ _ _) | (intro _ _) | extract_lets | split)

end Sys2Proof.Machine
end

