-- ==== Sys2Proof/Laws/Kept/Access.lean ====
section
/-! SUPPORT. What the operations of Machine/Access.lean keep (Laws/Kept.lean). -/

namespace Sys2Proof.Machine

theorem State.settleChannel_kept {z s : State} (ch : Chan) (hz : Kept z s) : Kept z (State.settleChannel s ch) := by
  unfold State.settleChannel
  repeat' (with_reducible first
    | assumption | apply State.modChan_kept)

theorem State.startBurst_kept {z s : State} (t : Ctx) (hz : Kept z s) : Kept z (State.startBurst s t) := by
  unfold State.startBurst
  repeat' (with_reducible first
    | assumption | apply State.beginBurst_kept | apply State.settleChannel_kept | apply Kept.ite | apply Kept.foldl)

theorem State.writeCap_kept {z s : State} (t : Ctx) (v : Word) (hz : Kept z s) : Kept z (State.writeCap s t v) := by
  unfold State.writeCap
  repeat' (with_reducible first
    | assumption | apply State.endBurst_kept | apply State.modCtx_kept | apply State.startBurst_kept | apply Kept.ite)

theorem State.writeCtx_kept {z s : State} (t : Ctx) (r : Nat) (v : Word) (hz : Kept z s) : Kept z (State.writeCtx s t r v) := by
  unfold State.writeCtx
  repeat' (with_reducible first
    | assumption | apply State.writeCap_kept | apply State.retarget_kept | apply State.modArch_kept
    | apply State.modCtx_kept | apply Kept.ite | apply Kept.foldl | (intro _ _ _) | (intro _ _) | extract_lets
    | split)

theorem State.losePin_kept {z s : State} (ch : Chan) (t : Ctx) (hz : Kept z s) : Kept z (State.losePin s ch t) := by
  unfold State.losePin
  repeat' (with_reducible first
    | assumption | apply State.c1_kept | apply State.flag_kept | apply State.modChan_kept | apply Kept.ite
    | apply Kept.foldl | (intro _ _ _) | (intro _ _) | extract_lets | split | apply Kept.upd | rfl)

theorem State.loseBurst_kept {z s : State} (b : Ctx) (m : Nat) (hz : Kept z s) : Kept z (State.loseBurst s b m) := by
  unfold State.loseBurst
  repeat' (with_reducible first
    | assumption | apply State.loseMode_kept | apply State.modCtx_kept | apply Kept.ite)

theorem State.loseF_kept {z s : State} (t : Ctx) (hz : Kept z s) : Kept z (State.loseF s t) := by
  unfold State.loseF
  repeat' (with_reducible first
    | assumption | apply State.loseBurst_kept | apply Kept.ite | apply Kept.foldl | (intro _ _ _))

theorem State.writeClaim_kept {z s : State} (t : Ctx) (ch : Chan) (v : Word) (hz : Kept z s) : Kept z (State.writeClaim s t ch v) := by
  unfold State.writeClaim
  repeat' (with_reducible first
    | assumption | apply State.loseF_kept | apply State.losePin_kept | apply State.settleChannel_kept
    | apply State.modChan_kept | apply Kept.ite | apply Kept.foldl | (intro _ _ _))

theorem State.checkFloor_kept {z s : State} (t : Ctx) (hz : Kept z s) : Kept z (State.checkFloor s t) := by
  unfold State.checkFloor
  repeat' (with_reducible first
    | assumption | apply State.c1_kept | apply Kept.ite | apply Kept.foldl | (intro _ _ _) | (intro _ _)
    | extract_lets | split | apply Kept.upd | rfl)

theorem State.writeFloor_kept {z s : State} (t : Ctx) (v : Word) (hz : Kept z s) : Kept z (State.writeFloor s t v) := by
  unfold State.writeFloor
  repeat' (with_reducible first
    | assumption | apply State.checkFloor_kept | apply Kept.ite | apply Kept.foldl | (intro _ _ _) | (intro _ _)
    | extract_lets | split | apply Kept.upd | rfl)

theorem State.writeSfl_kept {z s : State} (t : Ctx) (v : Word) (hz : Kept z s) : Kept z (State.writeSfl s t v) := by
  unfold State.writeSfl
  repeat' (with_reducible first
    | assumption | apply Kept.ite | apply Kept.foldl | (intro _ _ _) | (intro _ _) | extract_lets | split
    | apply Kept.upd | rfl)

theorem State.writeGauge_kept {z s : State} (t : Ctx) (r : Nat) (v : Word) (hz : Kept z s) : Kept z (State.writeGauge s t r v) := by
  unfold State.writeGauge
  repeat' (with_reducible first
    | assumption | apply State.writeSfl_kept | apply State.writeFloor_kept | apply Kept.ite)

theorem State.writeClk_kept {z s : State} (r : Region) (v : Word) (hz : Kept z s) : Kept z (State.writeClk s r v) := by
  unfold State.writeClk
  repeat' (with_reducible first
    | assumption | apply State.modRegion_kept | apply Kept.ite)

theorem State.writeRcfg_kept {z s : State} (r : Region) (v : Word) (hz : Kept z s) : Kept z (State.writeRcfg s r v) := by
  unfold State.writeRcfg
  repeat' (with_reducible first
    | assumption | apply State.modRegion_kept | apply Kept.ite | apply Kept.foldl | (intro _ _ _) | (intro _ _)
    | extract_lets | split | refine Kept.of_ok (by assumption) ?_ | refine Kept.of_raise (by assumption) ?_
    | refine Kept.of_stall (by assumption) ?_ | refine Kept.of_some (by assumption) ?_
    | refine Kept.of_done (by assumption) ?_ | refine Kept.of_fst (by assumption) ?_
    | refine Kept.of_snd (by assumption) ?_ | apply Kept.upd | rfl)

theorem State.writeRegion_kept {z s : State} (r : Region) (o : Nat) (v : Word) (hz : Kept z s) : Kept z (State.writeRegion s r o v) := by
  unfold State.writeRegion
  repeat' (with_reducible first
    | assumption | apply State.writeRcfg_kept | apply State.writeClk_kept | apply State.modRegion_kept
    | apply Kept.ite | apply Kept.foldl | (intro _ _ _) | (intro _ _) | extract_lets | split)

theorem State.writeTap_kept {z s : State} (t : Ctx) (k : Nat) (v : Word) (hz : Kept z s) : WriteKept z (State.writeTap s t k v) := by
  unfold State.writeTap
  repeat' (with_reducible first
    | assumption | apply Kept.ite | apply Kept.foldl | apply WriteKept.ite | apply WriteKept.done
    | exact WriteKept.refused | exact WriteKept.cause | (intro _ _ _) | (intro _ _) | extract_lets | split
    | apply Kept.upd | rfl)

theorem State.writeLabel_kept {z s : State} (t : Ctx) (v : Word) (hz : Kept z s) : WriteKept z (State.writeLabel s t v) := by
  unfold State.writeLabel
  repeat' (with_reducible first
    | assumption | apply Kept.ite | apply Kept.foldl | apply WriteKept.ite | apply WriteKept.done
    | exact WriteKept.refused | exact WriteKept.cause | (intro _ _ _) | (intro _ _) | extract_lets | split
    | apply Kept.upd | rfl)

theorem State.regWrite_kept {z s : State} (t : Ctx) (a : RegAddr) (v : Word) (hz : Kept z s) : WriteKept z (State.regWrite s t a v) := by
  unfold State.regWrite
  repeat' (with_reducible first
    | assumption | apply State.writeLabel_kept | apply State.writeTap_kept | apply State.writeRegion_kept
    | apply State.writeGauge_kept | apply State.writeClaim_kept | apply State.writeCtx_kept
    | apply State.writeStrip_kept | apply State.writeInOut_kept | apply State.retarget_kept | apply Kept.ite
    | apply Kept.foldl | apply WriteKept.ite | apply WriteKept.done | exact WriteKept.refused
    | exact WriteKept.cause | (intro _ _ _) | (intro _ _) | extract_lets | split)

theorem State.latch_kept {z s : State} (t : Ctx) (a : RegAddr) (hz : Kept z s) : Kept z (State.latch s t a) := by
  unfold State.latch
  repeat' (with_reducible first
    | assumption | apply State.modCtx_kept | apply Kept.ite | apply Kept.foldl | (intro _ _ _) | (intro _ _)
    | extract_lets | split)

theorem State.busTrip_kept {z s : State} (t : Ctx) (a : RegAddr) (out : Nat) (back : Nat) (hz : Kept z s) : Kept z (State.busTrip s t a out back) := by
  unfold State.busTrip
  repeat' (with_reducible first
    | assumption | apply State.forward_kept | apply Kept.ite)

theorem State.performReg_kept {z s : State} (t : Ctx) (a : RegAddr) (v : Option Word) (bad : Bool) (hz : Kept z s) : Kept z (State.performReg s t a v bad).1 := by
  unfold State.performReg
  repeat' (with_reducible first
    | assumption | apply State.latch_kept | apply State.regWrite_kept | apply Kept.ite | apply Kept.foldl
    | (intro _ _ _) | (intro _ _) | extract_lets | split | refine Kept.of_some (by assumption) ?_
    | refine Kept.of_fst (by assumption) ?_ | refine Kept.of_snd (by assumption) ?_
    | refine Kept.of_done (by assumption) ?_)

theorem State.busSend_kept {z s : State} (t : Ctx) (i : BitVec 13) (a : RegAddr) (v : Option Word) (tag : BitVec 6) (hz : Kept z s) : Kept z (State.busSend s t i a v tag) := by
  unfold State.busSend
  repeat' (with_reducible first
    | assumption | apply State.addFill_kept | apply State.answer_kept | apply State.inject_kept
    | apply State.performReg_kept | apply State.takeFate_kept | apply Kept.ite | apply Kept.foldl | (intro _ _ _)
    | (intro _ _) | extract_lets | split | refine Kept.of_some (by assumption) ?_
    | refine Kept.of_fst (by assumption) ?_ | refine Kept.of_snd (by assumption) ?_)

theorem State.busReply_kept {z s : State} (t : Ctx) (i : BitVec 13) (hz : Kept z s) : ResKept z (State.busReply s t i) := by
  unfold State.busReply
  repeat' (with_reducible first
    | assumption | apply State.asked_kept | apply Kept.ite | apply Kept.foldl | apply ResKept.bind | apply ResKept.ok
    | apply ResKept.raise | apply ResKept.stall | apply ResKept.ite | (intro _ _ _))

theorem State.busWait_kept {z s : State} (t : Ctx) (i : BitVec 13) (a : RegAddr) (v : Option Word) (hz : Kept z s) : ResKept z (State.busWait s t i a v) := by
  unfold State.busWait
  repeat' (with_reducible first
    | assumption | apply State.busReply_kept | apply State.busSend_kept | apply Kept.ite | apply Kept.foldl
    | apply ResKept.bind | apply ResKept.ok | apply ResKept.raise | apply ResKept.stall | apply ResKept.ite
    | (intro _ _ _) | (intro _ _) | extract_lets | split)

theorem State.readPush_kept {z s : State} (t : Ctx) (a : RegAddr) (word : Word) (hz : Kept z s) : ResKept z (State.readPush s t a word) := by
  unfold State.readPush
  repeat' (with_reducible first
    | assumption | apply State.busTrip_kept | apply State.latch_kept | apply Res.seq_kept | apply State.pushes_kept)

theorem State.readIndex_kept {z s : State} (t : Ctx) (i word : Word) (hz : Kept z s) : ResKept z (State.readIndex s t i word) := by
  unfold State.readIndex
  repeat' (with_reducible first
    | assumption | apply State.busWait_kept | apply State.pushes_kept | apply State.readPush_kept
    | apply Res.seq_kept | apply Kept.ite | apply Kept.foldl | apply ResKept.bind | apply ResKept.ok
    | apply ResKept.raise | apply ResKept.stall | apply ResKept.ite | (intro _ _ _) | (intro _ _) | extract_lets
    | split)

theorem State.writeIndex_kept {z s : State} (t : Ctx) (i : BitVec 13) (v : Word) (hz : Kept z s) : ResKept z (State.writeIndex s t i v) := by
  unfold State.writeIndex
  repeat' (with_reducible first
    | assumption | apply State.busTrip_kept | apply State.busWait_kept | apply State.cause_kept
    | apply State.regWrite_kept | apply Kept.ite | apply Kept.foldl | apply ResKept.bind | apply ResKept.ok
    | apply ResKept.raise | apply ResKept.stall | apply ResKept.ite | (intro _ _ _) | (intro _ _) | extract_lets
    | split | refine Kept.of_ok (by assumption) ?_ | refine Kept.of_raise (by assumption) ?_
    | refine Kept.of_stall (by assumption) ?_ | refine Kept.of_some (by assumption) ?_
    | refine Kept.of_done (by assumption) ?_)

theorem State.hrd_kept {z s : State} (t : Ctx) (field : BitVec 11) (hz : Kept z s) : Kept z (State.hrd s t field) := by
  unfold State.hrd
  repeat' (with_reducible first
    | assumption | apply State.readIndex_kept | apply State.zeroField_kept | apply State.plainOp_kept
    | apply State.pops_kept | apply Kept.ite | apply Kept.foldl | apply ResKept.bind | apply ResKept.ok
    | apply ResKept.raise | apply ResKept.stall | apply ResKept.ite | (intro _ _ _) | (intro _ _))

theorem State.hwr_kept {z s : State} (t : Ctx) (field : BitVec 11) (hz : Kept z s) : Kept z (State.hwr s t field) := by
  unfold State.hwr
  repeat' (with_reducible first
    | assumption | apply State.writeIndex_kept | apply State.zeroField_kept | apply State.systemOp_kept
    | apply State.pops_kept | apply Kept.ite | apply Kept.foldl | apply ResKept.bind | apply ResKept.ok
    | apply ResKept.raise | apply ResKept.stall | apply ResKept.ite | (intro _ _ _) | (intro _ _))

theorem State.hrdc_kept {z s : State} (t : Ctx) (field : BitVec 11) (hz : Kept z s) : Kept z (State.hrdc s t field) := by
  unfold State.hrdc
  repeat' (with_reducible first
    | assumption | apply State.readPush_kept | apply State.zeroField_kept | apply State.plainOp_kept
    | apply Kept.ite | apply Kept.foldl | apply ResKept.bind | apply ResKept.ok | apply ResKept.raise
    | apply ResKept.stall | apply ResKept.ite | (intro _ _ _) | (intro _ _))

theorem State.hwrc_kept {z s : State} (t : Ctx) (field : BitVec 11) (hz : Kept z s) : Kept z (State.hwrc s t field) := by
  unfold State.hwrc
  repeat' (with_reducible first
    | assumption | apply State.writeIndex_kept | apply State.zeroField_kept | apply State.systemOp_kept
    | apply State.pops_kept | apply Kept.ite | apply Kept.foldl | apply ResKept.bind | apply ResKept.ok
    | apply ResKept.raise | apply ResKept.stall | apply ResKept.ite | (intro _ _ _) | (intro _ _))

theorem execHrd_kept {z s : State} (t : Ctx) (field : BitVec 11) (hz : Kept z s) : OutKept z (execHrd t field s) := by
  unfold execHrd
  repeat' (with_reducible first
    | assumption | apply State.hrd_kept | apply Kept.ite | apply Kept.foldl | apply OutKept.ite | apply OutKept.next)

theorem execHwr_kept {z s : State} (t : Ctx) (field : BitVec 11) (hz : Kept z s) : OutKept z (execHwr t field s) := by
  unfold execHwr
  repeat' (with_reducible first
    | assumption | apply State.hwr_kept | apply Kept.ite | apply Kept.foldl | apply OutKept.ite | apply OutKept.next)

theorem execHrdc_kept {z s : State} (t : Ctx) (field : BitVec 11) (hz : Kept z s) : OutKept z (execHrdc t field s) := by
  unfold execHrdc
  repeat' (with_reducible first
    | assumption | apply State.hrdc_kept | apply Kept.ite | apply Kept.foldl | apply OutKept.ite
    | apply OutKept.next)

theorem execHwrc_kept {z s : State} (t : Ctx) (field : BitVec 11) (hz : Kept z s) : OutKept z (execHwrc t field s) := by
  unfold execHwrc
  repeat' (with_reducible first
    | assumption | apply State.hwrc_kept | apply Kept.ite | apply Kept.foldl | apply OutKept.ite
    | apply OutKept.next)

theorem State.hwrTo_kept {z s : State} (t : Ctx) (sel : RegAddr → Word → Bool) (hz : Kept z s) : Kept z (State.hwrTo s t sel) := by
  unfold State.hwrTo
  repeat' (with_reducible first
    | assumption | apply State.hwr_kept | apply Kept.ite | apply Kept.foldl | (intro _ _ _) | (intro _ _)
    | extract_lets | split)

theorem State.ownTo_kept {z s : State} (t : Ctx) (via : Via) (r : Nat) (sel : Word → Bool) (hz : Kept z s) : Kept z (State.ownTo s t via r sel) := by
  unfold State.ownTo
  repeat' (with_reducible first
    | assumption | apply State.hwrTo_kept | apply State.hwrc_kept | apply State.hwr_kept | apply Kept.ite
    | apply Kept.foldl | (intro _ _ _) | (intro _ _) | extract_lets | split)

theorem State.hrdOf_kept {z s : State} (t : Ctx) (a : RegAddr) (hz : Kept z s) : Kept z (State.hrdOf s t a) := by
  unfold State.hrdOf
  repeat' (with_reducible first
    | assumption | apply State.hrd_kept | apply Kept.ite)

theorem execLctlWrite_kept {z s : State} (t : Ctx) (via : Via) (hz : Kept z s) : OutKept z (execLctlWrite t via s) := by
  unfold execLctlWrite
  repeat' (with_reducible first
    | assumption | apply State.ownTo_kept | apply Kept.ite | apply Kept.foldl | apply OutKept.ite
    | apply OutKept.next)

theorem execRstatWrite_kept {z s : State} (t : Ctx) (via : Via) (hz : Kept z s) : OutKept z (execRstatWrite t via s) := by
  unfold execRstatWrite
  repeat' (with_reducible first
    | assumption | apply State.ownTo_kept | apply Kept.ite | apply Kept.foldl | apply OutKept.ite
    | apply OutKept.next)

theorem execCaptureTrigger_kept {z s : State} (t : Ctx) (via : Via) (hz : Kept z s) : OutKept z (execCaptureTrigger t via s) := by
  unfold execCaptureTrigger
  repeat' (with_reducible first
    | assumption | apply State.ownTo_kept | apply Kept.ite | apply Kept.foldl | apply OutKept.ite
    | apply OutKept.next)

theorem execCaptureArm_kept {z s : State} (t : Ctx) (via : Via) (hz : Kept z s) : OutKept z (execCaptureArm t via s) := by
  unfold execCaptureArm
  repeat' (with_reducible first
    | assumption | apply State.ownTo_kept | apply Kept.ite | apply Kept.foldl | apply OutKept.ite
    | apply OutKept.next)

theorem execCaptureStop_kept {z s : State} (t : Ctx) (via : Via) (hz : Kept z s) : OutKept z (execCaptureStop t via s) := by
  unfold execCaptureStop
  repeat' (with_reducible first
    | assumption | apply State.ownTo_kept | apply Kept.ite | apply Kept.foldl | apply OutKept.ite
    | apply OutKept.next)

theorem execCtsixlRead_kept {z s : State} (t : Ctx) (hz : Kept z s) : OutKept z (execCtsixlRead t s) := by
  unfold execCtsixlRead
  repeat' (with_reducible first
    | assumption | apply State.hrdOf_kept | apply Kept.ite | apply Kept.foldl | apply OutKept.ite
    | apply OutKept.next)

theorem execPtnsRead_kept {z s : State} (t : Ctx) (hz : Kept z s) : OutKept z (execPtnsRead t s) := by
  unfold execPtnsRead
  repeat' (with_reducible first
    | assumption | apply State.hrdOf_kept | apply Kept.ite | apply Kept.foldl | apply OutKept.ite
    | apply OutKept.next)

theorem State.hwrBlock_kept {z s : State} (t : Ctx) (b : Block) (off : Nat → Bool) (hz : Kept z s) : Kept z (State.hwrBlock s t b off) := by
  unfold State.hwrBlock
  repeat' (with_reducible first
    | assumption | apply State.hwrTo_kept)

theorem execCtclaimWrite_kept {z s : State} (t : Ctx) (hz : Kept z s) : OutKept z (execCtclaimWrite t s) := by
  unfold execCtclaimWrite
  repeat' (with_reducible first
    | assumption | apply State.hwrBlock_kept | apply Kept.ite | apply Kept.foldl | apply OutKept.ite
    | apply OutKept.next)

theorem execInctlWrite_kept {z s : State} (t : Ctx) (hz : Kept z s) : OutKept z (execInctlWrite t s) := by
  unfold execInctlWrite
  repeat' (with_reducible first
    | assumption | apply State.hwrBlock_kept | apply Kept.ite | apply Kept.foldl | apply OutKept.ite
    | apply OutKept.next)

theorem execInrelWrite_kept {z s : State} (t : Ctx) (hz : Kept z s) : OutKept z (execInrelWrite t s) := by
  unfold execInrelWrite
  repeat' (with_reducible first
    | assumption | apply State.hwrBlock_kept | apply Kept.ite | apply Kept.foldl | apply OutKept.ite
    | apply OutKept.next)

theorem execInloadWrite_kept {z s : State} (t : Ctx) (hz : Kept z s) : OutKept z (execInloadWrite t s) := by
  unfold execInloadWrite
  repeat' (with_reducible first
    | assumption | apply State.hwrBlock_kept | apply Kept.ite | apply Kept.foldl | apply OutKept.ite
    | apply OutKept.next)

theorem execOutctlWrite_kept {z s : State} (t : Ctx) (hz : Kept z s) : OutKept z (execOutctlWrite t s) := by
  unfold execOutctlWrite
  repeat' (with_reducible first
    | assumption | apply State.hwrBlock_kept | apply Kept.ite | apply Kept.foldl | apply OutKept.ite
    | apply OutKept.next)

theorem execBrctlWrite_kept {z s : State} (t : Ctx) (hz : Kept z s) : OutKept z (execBrctlWrite t s) := by
  unfold execBrctlWrite
  repeat' (with_reducible first
    | assumption | apply State.hwrBlock_kept | apply Kept.ite | apply Kept.foldl | apply OutKept.ite
    | apply OutKept.next)

theorem execWrlabWrite_kept {z s : State} (t : Ctx) (hz : Kept z s) : OutKept z (execWrlabWrite t s) := by
  unfold execWrlabWrite
  repeat' (with_reducible first
    | assumption | apply State.hwrBlock_kept | apply Kept.ite | apply Kept.foldl | apply OutKept.ite
    | apply OutKept.next)

theorem execGafloorWrite_kept {z s : State} (t : Ctx) (hz : Kept z s) : OutKept z (execGafloorWrite t s) := by
  unfold execGafloorWrite
  repeat' (with_reducible first
    | assumption | apply State.hwrBlock_kept | apply Kept.ite | apply Kept.foldl | apply OutKept.ite
    | apply OutKept.next)

theorem execGasflWrite_kept {z s : State} (t : Ctx) (hz : Kept z s) : OutKept z (execGasflWrite t s) := by
  unfold execGasflWrite
  repeat' (with_reducible first
    | assumption | apply State.hwrBlock_kept | apply Kept.ite | apply Kept.foldl | apply OutKept.ite
    | apply OutKept.next)

theorem execMntapWrite_kept {z s : State} (t : Ctx) (hz : Kept z s) : OutKept z (execMntapWrite t s) := by
  unfold execMntapWrite
  repeat' (with_reducible first
    | assumption | apply State.hwrBlock_kept | apply Kept.ite | apply Kept.foldl | apply OutKept.ite
    | apply OutKept.next)

theorem execMnclkWrite_kept {z s : State} (t : Ctx) (hz : Kept z s) : OutKept z (execMnclkWrite t s) := by
  unfold execMnclkWrite
  repeat' (with_reducible first
    | assumption | apply State.hwrBlock_kept | apply Kept.ite | apply Kept.foldl | apply OutKept.ite
    | apply OutKept.next)

theorem execMnrcfgWrite_kept {z s : State} (t : Ctx) (hz : Kept z s) : OutKept z (execMnrcfgWrite t s) := by
  unfold execMnrcfgWrite
  repeat' (with_reducible first
    | assumption | apply State.hwrBlock_kept | apply Kept.ite | apply Kept.foldl | apply OutKept.ite
    | apply OutKept.next)

end Sys2Proof.Machine
end

