-- ==== Sys2Proof/Laws/Kept/Sched.lean ====
section
/-! SUPPORT. What the operations of Machine/Sched.lean keep (Laws/Kept.lean). -/

namespace Sys2Proof.Machine

theorem State.takeNext_kept {z s : State} (t : Ctx) (r : Raise) (async : Bool) (hz : Kept z s) : Kept z (State.takeNext s t r async) := by
  unfold State.takeNext
  repeat' (with_reducible first
    | assumption | apply State.rollAsync_kept | apply State.nested_kept | apply State.enterBell_kept
    | apply State.dropCause_kept | apply State.modCtx_kept | apply Kept.ite)

theorem State.dropDisabled_kept {z s : State} (t : Ctx) (hz : Kept z s) : Kept z (State.dropDisabled s t) := by
  unfold State.dropDisabled
  repeat' (with_reducible first
    | assumption | apply State.dropCause_kept | apply State.modCtx_kept | apply Kept.ite | apply Kept.foldl
    | (intro _ _ _) | (intro _ _) | extract_lets | split)

theorem execBell_kept {z s : State} (t : Ctx) (hz : Kept z s) : OutKept z (execBell t s) := by
  unfold execBell
  repeat' (with_reducible first
    | assumption | apply State.dropDisabled_kept | apply State.takeNext_kept | apply Kept.ite | apply Kept.foldl
    | apply OutKept.ite | apply OutKept.next | exact OutKept.fault | exact OutKept.refused | (intro _ _ _)
    | (intro _ _) | extract_lets | split)

theorem State.newRounds_kept {z s : State} (hz : Kept z s) : Kept z s.newRounds := by
  unfold State.newRounds
  extract_lets k
  cases k with
  | none => exact hz
  | some k => exact Kept.upd hz rfl rfl rfl

theorem State.saveOut_kept {z s : State} (n : UnitId) (t : Ctx) (hz : Kept z s) : Kept z (State.saveOut s n t) := by
  unfold State.saveOut
  repeat' (with_reducible first
    | assumption | apply State.endSlice_kept | apply State.modUnit_kept | apply State.modCtx_kept | apply Kept.ite)

theorem State.loadIn_kept {z s : State} (n : UnitId) (t : Ctx) (hz : Kept z s) : Kept z (State.loadIn s n t) := by
  unfold State.loadIn
  repeat' (with_reducible first
    | assumption | apply State.startOp_kept | apply State.takeCause_kept | apply State.modUnit_kept
    | apply State.modCtx_kept | apply Kept.ite | apply Kept.foldl | apply ResKept.bind | apply ResKept.ok
    | apply ResKept.raise | apply ResKept.stall | apply ResKept.ite | (intro _ _ _) | (intro _ _) | extract_lets
    | split)

theorem State.takeReady_kept {z s : State} (n : UnitId) (par : Bool) (hz : Kept z s) : Kept z (State.takeReady s n par) := by
  unfold State.takeReady
  repeat' (with_reducible first
    | assumption | apply State.loadIn_kept | apply State.newRounds_kept | apply State.unitOffline_kept
    | apply Kept.ite | apply Kept.foldl | (intro _ _ _) | (intro _ _) | extract_lets | split)

theorem State.drainForSwap_kept {z s : State} (n : UnitId) (hz : Kept z s) : OptKept z (State.drainForSwap s n) := by
  unfold State.drainForSwap
  repeat' (with_reducible first
    | assumption | apply State.drainUnit_kept | apply Kept.ite | apply Kept.foldl | apply OptKept.ite
    | apply OptKept.some | exact OptKept.none)

theorem execContextSwap_kept {z s : State} (n : UnitId) (par : Bool) (hz : Kept z s) : OutKept z (execContextSwap n par s) := by
  unfold execContextSwap
  repeat' (with_reducible first
    | assumption | apply State.drainForSwap_kept | apply State.takeReady_kept | apply State.saveOut_kept
    | apply State.rollAsync_kept | apply State.drainUnit_kept | apply State.unitOffline_kept
    | apply State.modUnit_kept | apply Kept.ite | apply Kept.foldl | apply OutKept.ite | apply OutKept.next
    | (intro _ _ _) | (intro _ _) | extract_lets | split | refine Kept.of_ok (by assumption) ?_
    | refine Kept.of_raise (by assumption) ?_ | refine Kept.of_stall (by assumption) ?_
    | refine Kept.of_some (by assumption) ?_)

theorem execSliceExpiry_kept {z s : State} (n : UnitId) (hz : Kept z s) : OutKept z (execSliceExpiry n s) := by
  unfold execSliceExpiry
  repeat' (with_reducible first
    | assumption | apply State.rollAsync_kept | apply State.modUnit_kept | apply Kept.ite | apply Kept.foldl
    | apply OutKept.ite | apply OutKept.next | (intro _ _ _) | (intro _ _) | extract_lets | split)

theorem execWaitTimeout_kept {z s : State} (t : Ctx) (hz : Kept z s) : OutKept z (execWaitTimeout t s) := by
  unfold execWaitTimeout
  repeat' (with_reducible first
    | assumption | apply State.wakeArray_kept | apply State.endWait_kept | apply Kept.ite | apply Kept.foldl
    | apply OutKept.ite | apply OutKept.next | (intro _ _ _) | (intro _ _) | extract_lets | split)

end Sys2Proof.Machine
end

