-- ==== Sys2Proof/Laws/Kept/Buddies.lean ====
section
/-! SUPPORT. What the operations of Machine/Buddies.lean keep (Laws/Kept.lean). -/

namespace Sys2Proof.Machine

theorem State.take_kept {z s : State} (m : Message) (type : Nat) (f : State → State) (hf : ∀ s, Kept z s → Kept z (f s)) (hz : Kept z s) : Kept z (State.take s m type f) := by
  unfold State.take
  repeat' (with_reducible first
    | assumption | apply hf | apply Kept.ite | apply Kept.foldl | (intro _ _ _) | (intro _ _) | extract_lets | split
    | apply Kept.upd | rfl)

theorem State.sendPulse_kept {z s : State}  (hz : Kept z s) : Kept z (State.sendPulse s) := by
  unfold State.sendPulse
  repeat' (with_reducible first
    | assumption | apply State.sendMillrace_kept | apply Kept.ite | apply Kept.foldl | (intro _ _ _) | (intro _ _)
    | extract_lets | split | apply Kept.upd | rfl)

theorem execPulseSend_kept {z s : State}  (hz : Kept z s) : OutKept z (execPulseSend s) := by
  unfold execPulseSend
  repeat' (with_reducible first
    | assumption | apply State.sendPulse_kept | apply Kept.ite | apply Kept.foldl | apply OutKept.ite
    | apply OutKept.next | (intro _ _ _) | (intro _ _) | extract_lets | split | apply Kept.upd | rfl)

theorem State.buddyFinding_kept {z s : State} (b : BitVec 6) (event : Byte) (basis : Byte) (hz : Kept z s) : Kept z (State.buddyFinding s b event basis) := by
  unfold State.buddyFinding
  repeat' (with_reducible first
    | assumption | apply State.event_kept | apply State.formSystem_kept)

theorem State.sendLoss_kept {z s : State} (b : BitVec 6) (hz : Kept z s) : Kept z (State.sendLoss s b) := by
  unfold State.sendLoss
  repeat' (with_reducible first
    | assumption | apply State.sendMillrace_kept | apply State.modSocket_kept)

theorem State.settleVigil_kept {z s : State} (hz : Kept z s) : Kept z (State.settleVigil s) := by
  unfold State.settleVigil
  repeat' (with_reducible first
    | assumption | apply State.hwMode_kept | apply Kept.ite | apply Kept.foldl | (intro _ _ _) | (intro _ _)
    | extract_lets | split | apply Kept.upd | rfl)

theorem State.declareLost_kept {z s : State} (b : BitVec 6) (basis : BitVec 2) (hz : Kept z s) : Kept z (State.declareLost s b basis) := by
  unfold State.declareLost
  repeat' (with_reducible first
    | assumption | apply State.settleVigil_kept | apply State.sendLoss_kept | apply State.buddyFinding_kept
    | apply State.modSocket_kept | apply Kept.ite)

theorem State.holdLoss_kept {z s : State} (h : HeldLoss) (hz : Kept z s) : Kept z (State.holdLoss s h) := by
  unfold State.holdLoss
  repeat' (with_reducible first
    | assumption | apply Kept.ite | apply Kept.foldl | (intro _ _ _) | (intro _ _) | extract_lets | split
    | apply Kept.upd | rfl)

theorem State.buddyPulse_kept {z s : State} (b : BitVec 6) (newRun : Bool) (hz : Kept z s) : Kept z (State.buddyPulse s b newRun) := by
  unfold State.buddyPulse
  repeat' (with_reducible first
    | assumption | apply State.settleVigil_kept | apply State.buddyFinding_kept | apply State.modSocket_kept
    | apply Kept.ite)

theorem State.mapPulse_kept {z s : State} (b : BitVec 6) (m : Message) (hz : Kept z s) : Kept z (State.mapPulse s b m) := by
  unfold State.mapPulse
  repeat' (with_reducible first
    | assumption | apply State.modSocket_kept)

theorem State.onPulse_kept {z s : State} (m : Message) (hz : Kept z s) : Kept z (State.onPulse s m) := by
  unfold State.onPulse
  repeat' (with_reducible first
    | assumption | apply State.mapPulse_kept | apply State.buddyPulse_kept | apply Kept.ite)

theorem execPulse_kept {z s : State} (m : Message) (hz : Kept z s) : OutKept z (execPulse m s) := by
  unfold execPulse
  repeat' (with_reducible first
    | assumption | apply State.onPulse_kept | apply State.take_kept | apply Kept.ite | apply Kept.foldl
    | apply OutKept.ite | apply OutKept.next | (intro _ _ _) | (intro _ _))

theorem State.silence_kept {z s : State} (b : BitVec 6) (hz : Kept z s) : Kept z (State.silence s b) := by
  unfold State.silence
  repeat' (with_reducible first
    | assumption | apply State.holdLoss_kept | apply State.declareLost_kept | apply Kept.ite)

theorem execBuddySilence_kept {z s : State} (b : BitVec 6) (hz : Kept z s) : OutKept z (execBuddySilence b s) := by
  unfold execBuddySilence
  repeat' (with_reducible first
    | assumption | apply State.silence_kept | apply Kept.ite | apply Kept.foldl | apply OutKept.ite
    | apply OutKept.next)

theorem execLossRepeat_kept {z s : State} (b : BitVec 6) (hz : Kept z s) : OutKept z (execLossRepeat b s) := by
  unfold execLossRepeat
  repeat' (with_reducible first
    | assumption | apply State.sendLoss_kept | apply Kept.ite | apply Kept.foldl | apply OutKept.ite
    | apply OutKept.next)

theorem State.lossOfSelf_kept {z s : State}  (hz : Kept z s) : Kept z (State.lossOfSelf s) := by
  unfold State.lossOfSelf
  repeat' (with_reducible first
    | assumption | apply State.sendPulse_kept | apply Kept.ite | apply Kept.foldl | (intro _ _ _) | (intro _ _)
    | extract_lets | split | apply Kept.upd | rfl)

theorem State.onLoss_kept {z s : State} (m : Message) (hz : Kept z s) : Kept z (State.onLoss s m) := by
  unfold State.onLoss
  repeat' (with_reducible first
    | assumption | apply State.lossOfSelf_kept | apply State.holdLoss_kept | apply State.declareLost_kept
    | apply Kept.ite)

theorem execLoss_kept {z s : State} (m : Message) (hz : Kept z s) : OutKept z (execLoss m s) := by
  unfold execLoss
  repeat' (with_reducible first
    | assumption | apply State.onLoss_kept | apply State.take_kept | apply Kept.ite | apply Kept.foldl
    | apply OutKept.ite | apply OutKept.next | (intro _ _ _) | (intro _ _))

theorem State.onGoing_kept {z s : State} (m : Message) (hz : Kept z s) : Kept z (State.onGoing s m) := by
  unfold State.onGoing
  repeat' (with_reducible first
    | assumption | apply State.holdLoss_kept | apply State.declareLost_kept | apply State.cause_kept
    | apply State.modSocket_kept | apply Kept.ite)

theorem execGoing_kept {z s : State} (m : Message) (hz : Kept z s) : OutKept z (execGoing m s) := by
  unfold execGoing
  repeat' (with_reducible first
    | assumption | apply State.onGoing_kept | apply State.take_kept | apply Kept.ite | apply Kept.foldl
    | apply OutKept.ite | apply OutKept.next | (intro _ _ _) | (intro _ _))

theorem State.actHeld_kept {z s : State} (e : HeldLoss) (hz : Kept z s) : Kept z (s.actHeld e) := by
  cases e with
  | silence b => exact State.silence_kept b hz
  | going b c n => exact State.declareLost_kept b 2 hz
  | loss m => exact State.onLoss_kept m hz

end Sys2Proof.Machine
end

