-- ==== Sys2Proof/Laws/Kept/Pages.lean ====
section
/-! SUPPORT. What the operations of Machine/Pages.lean keep (Laws/Kept.lean). -/

namespace Sys2Proof.Machine

theorem execSectorEraseComplete_kept {z s : State} (r : KsRegion) (hz : Kept z s) : OutKept z (execSectorEraseComplete r s) := by
  unfold execSectorEraseComplete
  repeat' (with_reducible first
    | assumption | apply Kept.ite | apply Kept.foldl | apply OutKept.ite | apply OutKept.next | (intro _ _ _)
    | (intro _ _) | extract_lets | split | apply Kept.upd | rfl)

theorem State.writeFaultPage_kept {z s : State}  (hz : Kept z s) : Kept z (State.writeFaultPage s) := by
  unfold State.writeFaultPage
  repeat' (with_reducible first
    | assumption | apply State.usePairs_kept | apply State.take_kept | apply Kept.ite | apply Kept.foldl
    | (intro _ _ _) | (intro _ _) | extract_lets | split | refine Kept.of_ok (by assumption) ?_
    | refine Kept.of_raise (by assumption) ?_ | refine Kept.of_stall (by assumption) ?_
    | refine Kept.of_some (by assumption) ?_ | refine Kept.of_done (by assumption) ?_
    | refine Kept.of_fst (by assumption) ?_ | refine Kept.of_snd (by assumption) ?_ | apply Kept.upd | rfl)

theorem State.writeAllFaults_kept {z s : State}  (hz : Kept z s) : Kept z (State.writeAllFaults s) := by
  unfold State.writeAllFaults
  repeat' (with_reducible first
    | assumption | apply State.writeFaultPage_kept)

theorem execFaultLedgerPageWrite_kept {z s : State}  (hz : Kept z s) : OutKept z (execFaultLedgerPageWrite s) := by
  unfold execFaultLedgerPageWrite
  repeat' (with_reducible first
    | assumption | apply State.writeFaultPage_kept | apply Kept.ite | apply Kept.foldl | apply OutKept.ite
    | apply OutKept.next | (intro _ _ _) | (intro _ _) | extract_lets | split)

theorem State.writeStopRecord_kept {z s : State}  (hz : Kept z s) : Kept z (State.writeStopRecord s) := by
  unfold State.writeStopRecord
  repeat' (with_reducible first
    | assumption | apply State.usePairs_kept | apply State.cause_kept | apply Kept.ite | apply Kept.foldl
    | (intro _ _ _) | (intro _ _) | extract_lets | split | apply Kept.upd | rfl)

theorem execCountedInterval_kept {z s : State}  (hz : Kept z s) : OutKept z (execCountedInterval s) := by
  unfold execCountedInterval
  repeat' (with_reducible first
    | assumption | apply State.recordCounted_kept | apply Kept.ite | apply Kept.foldl | apply OutKept.ite
    | apply OutKept.next | (intro _ _ _) | (intro _ _) | extract_lets | split | apply Kept.upd | rfl)

theorem execFaultHandlingComplete_kept {z s : State}  (hz : Kept z s) : OutKept z (execFaultHandlingComplete s) := by
  unfold execFaultHandlingComplete
  repeat' (with_reducible first
    | assumption | apply Kept.ite | apply Kept.foldl | apply OutKept.ite | apply OutKept.next | (intro _ _ _)
    | (intro _ _) | extract_lets | split | apply Kept.upd | rfl)

end Sys2Proof.Machine
end

