-- ==== Sys2Proof/Laws/Kept/Loader.lean ====
section
/-! SUPPORT. What the operations of Machine/Loader.lean keep (Laws/Kept.lean). -/

namespace Sys2Proof.Machine

theorem Mem.wf_foldl {α β : Type} [DecidableEq α] {d : α} {f : Mem α → β → Mem α} {l : List β}
    (hf : ∀ m x, Mem.wf d m = true → Mem.wf d (f m x) = true) (m : Mem α) (h : Mem.wf d m = true) :
    Mem.wf d (l.foldl f m) = true := by
  induction l generalizing m with
  | nil => exact h
  | cons x l ih => exact ih _ (hf _ _ h)

theorem State.loadOpen_kept {z s : State} (t : Ctx) (r : TenantRecord) (ss : List Section) (hz : Kept z s) : Kept z (State.loadOpen s t r ss) := by
  unfold State.loadOpen
  repeat' (with_reducible first
    | assumption | apply State.c1_kept | apply Kept.ite | apply Kept.foldl | (intro _ _ _) | (intro _ _)
    | extract_lets | split | refine Kept.of_ok (by assumption) ?_ | refine Kept.of_raise (by assumption) ?_
    | refine Kept.of_stall (by assumption) ?_ | refine Kept.of_some (by assumption) ?_
    | refine Kept.of_done (by assumption) ?_ | refine Kept.of_fst (by assumption) ?_
    | refine Kept.of_snd (by assumption) ?_ | apply Kept.upd | rfl)

theorem State.placeSlot_kept {z s : State} (r : Region) (slot : BitVec 2) (b : List Byte) (hz : Kept z s) :
    Kept z (s.placeSlot r slot b) := by
  unfold State.placeSlot
  extract_lets at_ eddy
  refine State.modRegion_kept _ _ ⟨hz.1, hz.2, fun h => ?_, hz.4, hz.5, hz.6⟩
  exact Mem.wf_foldl (fun _ _ hm => Mem.wf_set _ _ _ _ (Mem.wf_set _ _ _ _ hm)) _ (hz.3 h)

theorem State.placeImage_kept {z s : State} (x : Section) (hz : Kept z s) : Kept z (State.placeImage s x) := by
  unfold State.placeImage
  repeat' (with_reducible first
    | assumption | apply State.modRegion_kept | apply State.placeSlot_kept | apply Kept.ite)

theorem State.loadImages_kept {z s : State} (t : Ctx) (ss : List Section) (hz : Kept z s) : Kept z (State.loadImages s t ss) := by
  unfold State.loadImages
  repeat' (with_reducible first
    | assumption | apply State.placeImage_kept | apply State.c1_kept | apply Kept.ite | apply Kept.foldl
    | (intro _ _ _) | (intro _ _) | extract_lets | split | refine Kept.of_ok (by assumption) ?_
    | refine Kept.of_raise (by assumption) ?_ | refine Kept.of_stall (by assumption) ?_
    | refine Kept.of_some (by assumption) ?_ | refine Kept.of_done (by assumption) ?_
    | refine Kept.of_fst (by assumption) ?_ | refine Kept.of_snd (by assumption) ?_ | apply Kept.upd | rfl)

theorem State.releaseGsr_kept {z s : State}  (hz : Kept z s) : Kept z (State.releaseGsr s) := by
  unfold State.releaseGsr
  repeat' (with_reducible first
    | assumption | apply Kept.ite | apply Kept.foldl | (intro _ _ _) | (intro _ _) | extract_lets | split
    | apply Kept.upd | rfl)

theorem State.loadWord_kept {z s : State} (p : Phys) (w : Word) (hz : Kept z s) : Kept z (s.loadWord p w) := by
  unfold State.loadWord
  split
  · exact ⟨hz.1, hz.2, fun h => Mem.wf_set _ _ _ _ (hz.3 h), hz.4, hz.5, hz.6⟩
  · exact ⟨hz.1, fun h => Mem.wf_set _ _ _ _ (hz.2 h), hz.3, hz.4, hz.5, hz.6⟩

theorem State.loadWords_kept {z s : State} (t : Ctx) (x : Section) (hz : Kept z s) : Kept z (State.loadWords s t x) := by
  unfold State.loadWords
  repeat' (with_reducible first
    | assumption | apply State.loadWord_kept | apply Kept.ite | apply Kept.foldl | (intro _ _ _) | (intro _ _)
    | extract_lets | split)

theorem State.loadHeadwater_kept {z s : State} (t : Ctx) (ss : List Section) (hz : Kept z s) : Kept z (State.loadHeadwater s t ss) := by
  unfold State.loadHeadwater
  repeat' (with_reducible first
    | assumption | apply State.loadWords_kept | apply State.modCtx_kept | apply Kept.ite | apply Kept.foldl
    | (intro _ _ _) | (intro _ _) | extract_lets | split)

end Sys2Proof.Machine
end

