-- ==== Sys2Proof/Laws/Lock.lean ====
section
/-! SUPPORT. The commit of a start raises the Lock's counters and adds to its enrolments, and never the reverse (R83,
R86): a candidate that passes has an epoch between the counter and 127. -/

namespace Sys2Proof.Machine

/-- No test of a list fails when the first failure is none. -/
theorem firstFail_all {l : List (Bool × Nat)} (h : firstFail l = none) : ∀ e ∈ l, e.1 = true := by
  induction l with
  | nil => intro e he; cases he
  | cons x l ih =>
    obtain ⟨ok, code⟩ := x
    simp only [firstFail] at h
    split at h
    · rename_i hok
      intro e he
      cases he with
      | head => exact hok
      | tail _ he => exact ih h e he
    · cases h

/-- The candidate that a trial answers has passed its test. -/
theorem tryCands_passed {step kind tenant : Nat} {test : Cand → Option Nat} {cs : List Cand} {c : Cand}
    (h : (tryCands step kind tenant test cs).2 = some c) : test c = none := by
  induction cs with
  | nil => cases h
  | cons x cs ih =>
    simp only [tryCands] at h
    split at h
    · rename_i hx
      cases h
      exact hx
    · exact ih h

/-- A bundle of correct form has an epoch of at most 127 (Table LK-2). -/
theorem formatOk_epoch {b : List Byte} (h : formatOk b = true) : bdEpoch b ≤ 127 := by
  unfold formatOk at h
  split at h
  · cases h
  · rename_i k hk
    simp only [Bool.and_eq_true] at h
    have he := h.1.1.1.1.1.1.1.1.1.1.2
    cases k <;> simp at he <;> omega

/-- A candidate that passed with the test of its epoch against `n` has an epoch from `n` to 127. -/
theorem startCode_epoch {enrol : Option Enrolment} {key : BitVec 256} {named : Bool} {n code : Nat}
    {content : List Byte → List (Bool × Nat)} {c : Cand}
    (h : startCode enrol key named [(decide (n ≤ bdEpoch c.bundle), code)] content c = none) :
    n ≤ bdEpoch c.bundle ∧ bdEpoch c.bundle ≤ 127 := by
  unfold startCode at h
  split at h
  · cases h
  · rename_i hf
    have ha := firstFail_all hf
    constructor
    · have := ha (decide (n ≤ bdEpoch c.bundle), code) (by simp)
      simpa using this
    · exact formatOk_epoch (ha (formatOk c.bundle, rfFormat) (by simp [startTests, arrivalTests]))

/-- The epoch of such a candidate is not below the counter. -/
theorem Cand.epoch_ge {c : Cand} {n : BitVec 7} (h : n.toNat ≤ bdEpoch c.bundle) (h' : bdEpoch c.bundle ≤ 127) :
    n ≤ c.epoch := by
  rw [BitVec.le_def]
  simp only [Cand.epoch, BitVec.toNat_ofNat]
  omega

theorem verifyPatch_ge {l : Lock} {ks : Keepsake} {c : Cand} (h : (verifyPatch l ks).2.1 = some c) :
    l.patchCtr ≤ c.epoch := by
  simp only [verifyPatch] at h
  have h1 := tryCands_passed h
  have h2 := startCode_epoch h1
  exact Cand.epoch_ge h2.1 h2.2

theorem verifyCharter_ge {l : Lock} {e : Option Enrolment} {ks : Keepsake} {c : Cand}
    (h : (verifyCharter l e ks).2.1 = some c) : l.charterCtr ≤ c.epoch := by
  simp only [verifyCharter] at h
  have h1 := tryCands_passed h
  have h2 := startCode_epoch h1
  exact Cand.epoch_ge h2.1 h2.2

/-- The commit keeps the queue and Lock's fuses from going back. -/
theorem Lock.commit_kept {z s : State} (ks : Keepsake) (loop loop' : Bool) (hz : Kept z s) :
    Kept z { s with lock := s.lock.commit (verify s.lock ks loop) loop' } := by
  refine ⟨hz.1, hz.2, hz.3, BitVec.le_trans hz.4 ?_, BitVec.le_trans hz.5 ?_, hz.6.trans ?_⟩
  · show s.lock.charterCtr ≤ (verify s.lock ks loop).charter.elim s.lock.charterCtr Cand.epoch
    cases h : (verify s.lock ks loop).charter with
    | none => exact BitVec.le_refl _
    | some c =>
      simp only [verify] at h
      split at h
      · cases h
      · exact verifyCharter_ge h
  · show s.lock.patchCtr ≤ (verify s.lock ks loop).patch.elim s.lock.patchCtr Cand.epoch
    cases h : (verify s.lock ks loop).patch with
    | none => exact BitVec.le_refl _
    | some c => exact verifyPatch_ge (by simpa [verify] using h)
  · simp only [Lock.commit]
    split
    · exact List.prefix_append _ _
    · exact List.prefix_refl _

end Sys2Proof.Machine
end

