-- ==== Sys2Proof/Laws/Kept/Start.lean ====
section
/-! SUPPORT. What the operations of Machine/Start.lean keep (Laws/Kept.lean). -/

namespace Sys2Proof.Machine

theorem State.newRun_kept {z s : State} (i : StartInput) (powerOn : Bool) (took : Nat) (code : CodeOutcome) (hz : Kept z s) :
    Kept z (s.newRun i powerOn took code) :=
  ⟨hz.1, fun _ => rfl, fun _ => rfl, hz.4, hz.5, hz.6⟩

theorem State.socketRecord_kept {z s : State} (hz : Kept z s) : Kept z s.socketRecord := by
  unfold State.socketRecord
  extract_lets old new moved m s1
  have h1 : Kept z s1 := Kept.upd hz rfl rfl rfl
  clear_value s1 new
  cases new with
  | none => exact h1
  | some x => exact .ite h1 (Kept.upd (State.usePairs_kept _ _ h1) rfl rfl rfl)

theorem State.recordVerify_kept {z s : State} (gs : List VGroup) (hz : Kept z s) : Kept z (State.recordVerify s gs) := by
  unfold State.recordVerify
  repeat' (with_reducible first
    | assumption | apply State.c1_kept | apply Kept.ite | apply Kept.foldl | (intro _ _ _))

theorem State.grantAll_kept {z s : State}  (hz : Kept z s) : Kept z (State.grantAll s) := by
  unfold State.grantAll
  repeat' (with_reducible first
    | assumption | apply Kept.ite | apply Kept.foldl | (intro _ _ _) | (intro _ _) | extract_lets | split
    | refine Kept.of_ok (by assumption) ?_ | refine Kept.of_raise (by assumption) ?_
    | refine Kept.of_stall (by assumption) ?_ | refine Kept.of_some (by assumption) ?_
    | refine Kept.of_done (by assumption) ?_ | refine Kept.of_fst (by assumption) ?_
    | refine Kept.of_snd (by assumption) ?_ | apply Kept.upd | rfl)

theorem State.writeRoutes_kept {z s : State}  (hz : Kept z s) : Kept z (State.writeRoutes s) := by
  unfold State.writeRoutes
  repeat' (with_reducible first
    | assumption | apply Kept.ite | apply Kept.foldl | (intro _ _ _) | (intro _ _) | extract_lets | split
    | apply Kept.upd | rfl)

theorem State.calibrateAll_kept {z s : State} (meas : Vector ChanMeas 12) (hz : Kept z s) : Kept z (State.calibrateAll s meas) := by
  unfold State.calibrateAll
  repeat' (with_reducible first
    | assumption | apply State.c1_kept | apply Kept.ite | apply Kept.foldl | (intro _ _ _) | (intro _ _)
    | extract_lets | split | apply Kept.upd | rfl)

theorem State.loadFabric_kept {z s : State} (v : Verified) (hz : Kept z s) : Kept z (State.loadFabric s v) := by
  unfold State.loadFabric
  repeat' (with_reducible first
    | assumption | apply State.releaseGsr_kept | apply State.loadImages_kept | apply State.loadOpen_kept
    | apply Kept.ite | apply Kept.foldl | (intro _ _ _) | (intro _ _) | extract_lets | split)

theorem State.baseRecipe_kept {z s : State} (hz : Kept z s) : Kept z (State.baseRecipe s) := by
  unfold State.baseRecipe
  repeat' (with_reducible first
    | assumption | apply State.modCtx_kept | apply State.takeFree_kept | apply State.writeClaim_kept | apply Kept.ite
    | apply Kept.foldl | (intro _ _ _) | (intro _ _) | extract_lets | split | refine Kept.of_fst (by assumption) ?_
    | refine Kept.of_snd (by assumption) ?_ | apply Kept.upd | rfl)

theorem State.runRecipe_kept {z s : State} (t : Ctx) (ss : List Section) (hz : Kept z s) : Kept z (State.runRecipe s t ss) := by
  unfold State.runRecipe
  repeat' (with_reducible first
    | assumption | apply State.loadHeadwater_kept | apply State.modCtx_kept | apply Kept.ite | apply Kept.foldl
    | (intro _ _ _) | (intro _ _) | extract_lets | split | apply Kept.upd | rfl)

theorem State.releaseContexts_kept {z s : State} (v : Verified) (hz : Kept z s) : Kept z (State.releaseContexts s v) := by
  unfold State.releaseContexts
  repeat' (with_reducible first
    | assumption | apply State.runRecipe_kept | apply State.baseRecipe_kept | apply State.planProof_kept
    | apply Kept.ite | apply Kept.foldl | (intro _ _ _) | (intro _ _) | extract_lets | split | apply Kept.upd | rfl)

theorem State.firstProof_kept {z s : State}  (hz : Kept z s) : Kept z (State.firstProof s) := by
  unfold State.firstProof
  repeat' (with_reducible first
    | assumption | apply Kept.ite | apply Kept.foldl | (intro _ _ _) | (intro _ _) | extract_lets | split
    | apply Kept.upd | rfl)

theorem State.writeReport_kept {z s : State} (old : Retained) (gs : List VGroup) (hz : Kept z s) : Kept z (State.writeReport s old gs) := by
  unfold State.writeReport
  repeat' (with_reducible first
    | assumption | apply Kept.ite | apply Kept.foldl | (intro _ _ _) | (intro _ _) | extract_lets | split
    | apply Kept.upd | rfl)

theorem State.recordStart_kept {z s : State} (old : Retained) (hz : Kept z s) : Kept z (State.recordStart s old) := by
  unfold State.recordStart
  repeat' (with_reducible first
    | assumption | apply State.cause_kept | apply State.c1_kept | apply Kept.ite | apply Kept.foldl | (intro _ _ _)
    | (intro _ _) | extract_lets | split)

theorem State.retain_kept {z s : State}  (hz : Kept z s) : Kept z (State.retain s) := by
  unfold State.retain
  repeat' (with_reducible first
    | assumption | apply Kept.ite | apply Kept.foldl | (intro _ _ _) | (intro _ _) | extract_lets | split
    | apply Kept.upd | rfl)

theorem State.goDormant_kept {z s : State}  (hz : Kept z s) : Kept z (State.goDormant s) := by
  unfold State.goDormant
  repeat' (with_reducible first
    | assumption | apply Kept.ite | apply Kept.foldl | (intro _ _ _) | (intro _ _) | extract_lets | split
    | apply Kept.upd | rfl)

theorem State.fuseDormant_kept {z s : State}  (hz : Kept z s) : Kept z (State.fuseDormant s) := by
  unfold State.fuseDormant
  repeat' (with_reducible first
    | assumption | apply State.goDormant_kept | apply State.recordVerify_kept | apply State.writeAllFaults_kept
    | apply State.cause_kept | apply State.sendGoing_kept | apply Kept.ite | apply Kept.foldl | (intro _ _ _)
    | (intro _ _) | extract_lets | split | apply Kept.upd | rfl)

theorem State.checkSpares_kept {z s : State} (bad : BitVec 16) (hz : Kept z s) : Kept z (State.checkSpares s bad) := by
  unfold State.checkSpares
  repeat' (with_reducible first
    | assumption | apply State.spareOffline_kept | apply Kept.ite | apply Kept.foldl)

theorem State.commitPart_kept {z s : State} (ks : Keepsake) (loop : Bool) (n : Nat) (hz : Kept z s) :
    Kept z (s.commitPart (verify s.lock ks loop) n) := by
  unfold State.commitPart
  extract_lets l done s1 l1 s2
  have hd : Kept z { s with lock := done } := Lock.commit_kept ks loop false hz
  have h1 : Kept z s1 := by
    show Kept z (if 1 ≤ n then { s with lock := { l with banks := done.banks } } else s)
    split
    · exact ⟨hz.1, hz.2, hz.3, hz.4, hz.5, hd.6⟩
    · exact hz
  have h2 : Kept z s2 := by
    show Kept z (if 2 ≤ n then { s1 with lock := { s1.lock with charterCtr := done.charterCtr, patchCtr := done.patchCtr } }
      else s1)
    split
    · exact ⟨h1.1, h1.2, h1.3, hd.4, hd.5, h1.6⟩
    · exact h1
  exact .ite (State.socketRecord_kept h2) h2

theorem State.standStill_kept {z s : State} (i : StartInput) (powerOn loop : Bool) (n : Nat) (hz : Kept z s) :
    Kept z (s.standStill i powerOn loop n) := by
  unfold State.standStill
  exact Kept.upd (State.commitPart_kept _ _ _ (State.retain_kept (State.newRun_kept _ _ _ _ hz))) rfl rfl rfl

theorem State.startToRun_kept {z s : State} (i : StartInput) (powerOn loop : Bool) (hz : Kept z s) :
    Kept z (s.startToRun i powerOn loop) := by
  unfold State.startToRun
  extract_lets old s1 s1'
  have h1 : Kept z s1' := Kept.upd (State.retain_kept (State.newRun_kept _ _ _ _ hz)) rfl rfl rfl
  clear_value s1'
  split
  · exact State.fuseDormant_kept (State.recordStart_kept old h1)
  rename_i v s2 s3 s4 s5 s6 hf
  have h2 : Kept z s2 := Lock.commit_kept _ _ _ h1
  have h3 : Kept z s3 := State.checkSpares_kept _ (State.recordVerify_kept _ (State.recordStart_kept _
    (State.socketRecord_kept (State.grantAll_kept h2))))
  have h4 : Kept z s4 := State.writeRoutes_kept h3
  have h5 : Kept z s5 := by
    have e : s5 = match v.patch.bind (fun c => openContent c.bundle) with
      | some c => { s4 with sluice := s4.sluice.applyPatch (patchEntries c) }
      | none => s4 := rfl
    rw [e]
    split
    · exact Kept.upd h4 rfl rfl rfl
    · exact h4
  exact State.writeReport_kept _ _ (State.releaseContexts_kept _ (State.firstProof_kept
    (State.calibrateAll_kept _ (State.loadFabric_kept _ h5))))

theorem State.start_kept {z s : State} (i : StartInput) (powerOn loop : Bool) (hz : Kept z s) : Kept z (State.start s i powerOn loop) := by
  unfold State.start
  repeat' (with_reducible first
    | assumption | apply State.standStill_kept | apply State.startToRun_kept | apply Kept.ite | apply Kept.foldl
    | apply ResKept.bind | apply ResKept.ok | apply ResKept.raise | apply ResKept.stall | apply ResKept.ite
    | (intro _ _ _) | (intro _ _) | extract_lets | split)

end Sys2Proof.Machine
end

