-- ==== Sys2Proof/Laws/Kept/Supply.lean ====
section
/-! SUPPORT. What the operations of Machine/Supply.lean keep (Laws/Kept.lean). -/

namespace Sys2Proof.Machine

theorem execPowerOn_kept {z s : State} (i : StartInput) (hz : Kept z s) : OutKept z (execPowerOn i s) := by
  unfold execPowerOn
  repeat' (with_reducible first
    | assumption | apply State.start_kept | apply Res.seq_kept | apply State.cause_kept | apply Kept.ite
    | apply Kept.foldl | apply OutKept.ite | apply OutKept.next | (intro _ _ _) | (intro _ _) | extract_lets | split
    | apply Kept.upd | rfl)

theorem State.countRestart_kept {z s : State}  (hz : Kept z s) : Kept z (State.countRestart s) := by
  unfold State.countRestart
  repeat' (with_reducible first
    | assumption | apply Kept.ite | apply Kept.foldl | (intro _ _ _) | (intro _ _) | extract_lets | split
    | apply Kept.upd | rfl)

theorem State.ageRestarts_kept {z s : State}  (hz : Kept z s) : Kept z (State.ageRestarts s) := by
  unfold State.ageRestarts
  repeat' (with_reducible first
    | assumption | apply Kept.ite | apply Kept.foldl | (intro _ _ _) | (intro _ _) | extract_lets | split
    | apply Kept.upd | rfl)

theorem State.countedStart_kept {z s : State} (i : StartInput) (hz : Kept z s) : Kept z (State.countedStart s i) := by
  unfold State.countedStart
  repeat' (with_reducible first
    | assumption | apply State.countRestart_kept | apply State.start_kept | apply State.goDormant_kept
    | apply Kept.ite)

theorem State.plainStart_kept {z s : State} (i : StartInput) (hz : Kept z s) : Kept z (State.plainStart s i) := by
  unfold State.plainStart
  repeat' (with_reducible first
    | assumption | apply State.ageRestarts_kept | apply State.start_kept)

theorem execBrownOutThreshold_kept {z s : State}  (hz : Kept z s) : OutKept z (execBrownOutThreshold s) := by
  unfold execBrownOutThreshold
  repeat' (with_reducible first
    | assumption | apply Kept.ite | apply Kept.foldl | apply OutKept.ite | apply OutKept.next | (intro _ _ _)
    | (intro _ _) | extract_lets | split | apply Kept.upd | rfl)

theorem State.mainDieOff_kept {z s : State}  (hz : Kept z s) : Kept z (State.mainDieOff s) := by
  unfold State.mainDieOff
  repeat' (with_reducible first
    | assumption | apply Kept.ite | apply Kept.foldl | (intro _ _ _) | (intro _ _) | extract_lets | split
    | apply Kept.upd | rfl)

theorem State.filterExpires_kept {z s : State} (hz : Kept z s) : Kept z (State.filterExpires s) := by
  unfold State.filterExpires
  repeat' (with_reducible first
    | assumption | apply State.decideStop_kept | apply State.mainDieOff_kept | apply Kept.ite | apply Kept.foldl
    | (intro _ _ _) | (intro _ _) | extract_lets | split | apply Kept.upd | rfl)

theorem execBrownOutDipEnd_kept {z s : State} (hz : Kept z s) : OutKept z (execBrownOutDipEnd s) := by
  unfold execBrownOutDipEnd
  repeat' (with_reducible first
    | assumption | apply State.actHeld_kept | apply State.filterExpires_kept | apply Kept.ite | apply Kept.foldl
    | apply OutKept.ite | apply OutKept.next | exact OutKept.fault | exact OutKept.refused | (intro _ _ _)
    | (intro _ _) | extract_lets | split | refine Kept.of_some (by assumption) ?_
    | refine Kept.of_over (by assumption) ?_ | refine Kept.of_go (by assumption) ?_
    | refine Kept.of_call (by assumption) ?_ | apply Kept.upd | rfl)

theorem execBrownOutFilterExpiry_kept {z s : State} (hz : Kept z s) : OutKept z (execBrownOutFilterExpiry s) := by
  unfold execBrownOutFilterExpiry
  repeat' (with_reducible first
    | assumption | apply State.filterExpires_kept | apply Kept.ite | apply Kept.foldl | apply OutKept.ite
    | apply OutKept.next | exact OutKept.fault | exact OutKept.refused | (intro _ _ _) | (intro _ _) | extract_lets
    | split)

theorem execVsReturnAboveBrownOut_kept {z s : State}  (hz : Kept z s) : OutKept z (execVsReturnAboveBrownOut s) := by
  unfold execVsReturnAboveBrownOut
  repeat' (with_reducible first
    | assumption | apply Kept.ite | apply Kept.foldl | apply OutKept.ite | apply OutKept.next | (intro _ _ _)
    | (intro _ _) | extract_lets | split | apply Kept.upd | rfl)

theorem execReturnAfterBrownOut_kept {z s : State} (i : StartInput) (hz : Kept z s) : OutKept z (execReturnAfterBrownOut i s) := by
  unfold execReturnAfterBrownOut
  repeat' (with_reducible first
    | assumption | apply State.plainStart_kept | apply State.countedStart_kept | apply Kept.ite | apply Kept.foldl
    | apply OutKept.ite | apply OutKept.next | (intro _ _ _) | (intro _ _) | extract_lets | split
    | refine Kept.of_ok (by assumption) ?_ | refine Kept.of_raise (by assumption) ?_
    | refine Kept.of_stall (by assumption) ?_ | refine Kept.of_some (by assumption) ?_
    | refine Kept.of_done (by assumption) ?_ | refine Kept.of_fst (by assumption) ?_
    | refine Kept.of_snd (by assumption) ?_ | apply Kept.upd | rfl)

theorem execStoreExhausted_kept {z s : State}  (hz : Kept z s) : OutKept z (execStoreExhausted s) := by
  unfold execStoreExhausted
  repeat' (with_reducible first
    | assumption | apply State.mainDieOff_kept | apply Kept.ite | apply Kept.foldl | apply OutKept.ite
    | apply OutKept.next | (intro _ _ _) | (intro _ _) | extract_lets | split | apply Kept.upd | rfl)

theorem State.persistStop_kept {z s : State}  (hz : Kept z s) : Kept z (State.persistStop s) := by
  unfold State.persistStop
  repeat' (with_reducible first
    | assumption | apply State.writeStopRecord_kept | apply State.writeAllFaults_kept | apply Kept.ite
    | apply Kept.foldl | (intro _ _ _) | (intro _ _) | extract_lets | split | apply Kept.upd | rfl)

theorem State.retainStop_kept {z s : State}  (hz : Kept z s) : Kept z (State.retainStop s) := by
  unfold State.retainStop
  repeat' (with_reducible first
    | assumption | apply Res.seq_kept | apply State.cause_kept | apply Kept.ite | apply Kept.foldl | (intro _ _ _)
    | (intro _ _) | extract_lets | split | apply Kept.upd | rfl)

theorem State.afterStop_kept {z s : State} (i : StartInput) (hz : Kept z s) : Kept z (State.afterStop s i) := by
  unfold State.afterStop
  repeat' (with_reducible first
    | assumption | apply State.plainStart_kept | apply State.start_kept | apply Res.go_kept | apply State.cause_kept
    | apply Kept.ite | apply Kept.foldl | (intro _ _ _) | (intro _ _) | extract_lets | split
    | refine Kept.of_ok (by assumption) ?_ | refine Kept.of_raise (by assumption) ?_
    | refine Kept.of_stall (by assumption) ?_ | refine Kept.of_some (by assumption) ?_
    | refine Kept.of_done (by assumption) ?_ | refine Kept.of_fst (by assumption) ?_
    | refine Kept.of_snd (by assumption) ?_ | apply Kept.upd | rfl)

theorem execStopComplete_kept {z s : State} (i : StartInput) (hz : Kept z s) : OutKept z (execStopComplete i s) := by
  unfold execStopComplete
  repeat' (with_reducible first
    | assumption | apply State.afterStop_kept | apply State.retainStop_kept | apply State.persistStop_kept
    | apply State.mainDieOff_kept | apply Kept.ite | apply Kept.foldl | apply OutKept.ite | apply OutKept.next)

theorem execC4WaitExpiry_kept {z s : State} (i : StartInput) (hz : Kept z s) : OutKept z (execC4WaitExpiry i s) := by
  unfold execC4WaitExpiry
  repeat' (with_reducible first
    | assumption | apply State.countedStart_kept | apply Kept.ite | apply Kept.foldl | apply OutKept.ite
    | apply OutKept.next)

theorem execThermalRelease_kept {z s : State} (i : StartInput) (hz : Kept z s) : OutKept z (execThermalRelease i s) := by
  unfold execThermalRelease
  repeat' (with_reducible first
    | assumption | apply State.plainStart_kept | apply Kept.ite | apply Kept.foldl | apply OutKept.ite
    | apply OutKept.next | (intro _ _ _) | (intro _ _) | extract_lets | split)

theorem execWatchdogExpiry_kept {z s : State} (i : StartInput) (hz : Kept z s) : OutKept z (execWatchdogExpiry i s) := by
  unfold execWatchdogExpiry
  repeat' (with_reducible first
    | assumption | apply State.mainDieOff_kept | apply State.countedStart_kept | apply Res.seq_kept
    | apply State.cause_kept | apply State.sendGoing_kept | apply Kept.ite | apply Kept.foldl | apply OutKept.ite
    | apply OutKept.next | (intro _ _ _) | (intro _ _) | extract_lets | split | apply Kept.upd | rfl)

theorem execWatchdogService_kept {z s : State}  (hz : Kept z s) : OutKept z (execWatchdogService s) := by
  unfold execWatchdogService
  repeat' (with_reducible first
    | assumption | apply Kept.ite | apply Kept.foldl | apply OutKept.ite | apply OutKept.next | (intro _ _ _)
    | (intro _ _) | extract_lets | split | apply Kept.upd | rfl)

theorem execPllLockLoss_kept {z s : State} (p : Pll) (overOneMs : Bool) (hz : Kept z s) : OutKept z (execPllLockLoss p overOneMs s) := by
  unfold execPllLockLoss
  repeat' (with_reducible first
    | assumption | apply State.takeFault_kept | apply State.countFault_kept | apply Kept.ite | apply Kept.foldl
    | apply OutKept.ite | apply OutKept.next | (intro _ _ _) | (intro _ _) | extract_lets | split | apply Kept.upd
    | rfl)

theorem execRailOutOfBand_kept {z s : State} (rail : Fin 5) (hz : Kept z s) : OutKept z (execRailOutOfBand rail s) := by
  unfold execRailOutOfBand
  repeat' (with_reducible first
    | assumption | apply State.takeFault_kept | apply Kept.ite | apply Kept.foldl | apply OutKept.ite
    | apply OutKept.next | (intro _ _ _) | (intro _ _) | extract_lets | split | apply Kept.upd | rfl)

theorem execLockSelfCheckFailure_kept {z s : State} (drbg : Bool) (hz : Kept z s) : OutKept z (execLockSelfCheckFailure drbg s) := by
  unfold execLockSelfCheckFailure
  repeat' (with_reducible first
    | assumption | apply State.takeFault_kept | apply Kept.ite | apply Kept.foldl | apply OutKept.ite
    | apply OutKept.next)

theorem execRunTokenLapse_kept {z s : State}  (hz : Kept z s) : OutKept z (execRunTokenLapse s) := by
  unfold execRunTokenLapse
  repeat' (with_reducible first
    | assumption | apply Kept.ite | apply Kept.foldl | apply OutKept.ite | apply OutKept.next | (intro _ _ _)
    | (intro _ _) | extract_lets | split | apply Kept.upd | rfl)

theorem State.rereadDiffers_kept {z s : State} (o : CodeOutcome) (hz : Kept z s) : Kept z (State.rereadDiffers s o) := by
  unfold State.rereadDiffers
  repeat' (with_reducible first
    | assumption | apply State.decideHale_kept | apply State.c1_kept | apply Kept.ite | apply Kept.foldl
    | (intro _ _ _) | (intro _ _) | extract_lets | split | apply Kept.upd | rfl)

theorem State.rereadSame_kept {z s : State}  (hz : Kept z s) : Kept z (State.rereadSame s) := by
  unfold State.rereadSame
  repeat' (with_reducible first
    | assumption | apply State.decideHale_kept | apply Kept.ite | apply Kept.foldl | (intro _ _ _) | (intro _ _)
    | extract_lets | split | apply Kept.upd | rfl)

theorem execCodeReread_kept {z s : State} (r : CodeReading) (hz : Kept z s) : OutKept z (execCodeReread r s) := by
  unfold execCodeReread
  repeat' (with_reducible first
    | assumption | apply State.rereadSame_kept | apply State.rereadDiffers_kept | apply Kept.ite | apply Kept.foldl
    | apply OutKept.ite | apply OutKept.next | (intro _ _ _) | (intro _ _) | extract_lets | split | apply Kept.upd
    | rfl)

end Sys2Proof.Machine
end

