-- ==== Sys2Proof/Laws/Kept/Gauge.lean ====
section
/-! SUPPORT. What the operations of Machine/Gauge.lean keep (Laws/Kept.lean). -/

namespace Sys2Proof.Machine

theorem State.throttleEdge_kept {z s : State} (before : Nat) (hz : Kept z s) : Kept z (State.throttleEdge s before) := by
  unfold State.throttleEdge
  repeat' (with_reducible first
    | assumption | apply State.signalAll_kept | apply Kept.ite | apply Kept.foldl | (intro _ _ _) | (intro _ _)
    | extract_lets | split | apply Kept.upd | rfl)

theorem State.dieReading_kept {z s : State} (t : BitVec 16) (hz : Kept z s) : Kept z (State.dieReading s t) := by
  unfold State.dieReading
  repeat' (with_reducible first
    | assumption | apply State.throttleEdge_kept | apply State.checkFloor_kept | apply State.retarget_kept
    | apply State.decideStop_kept | apply Kept.ite | apply Kept.foldl | (intro _ _ _) | (intro _ _) | extract_lets
    | split | apply Kept.upd | rfl)

theorem State.backwaterReading_kept {z s : State} (t : BitVec 16) (hz : Kept z s) : Kept z (State.backwaterReading s t) := by
  unfold State.backwaterReading
  repeat' (with_reducible first
    | assumption | apply Kept.ite | apply Kept.foldl | (intro _ _ _) | (intro _ _) | extract_lets | split
    | apply Kept.upd | rfl)

theorem execDieTemperatureReading_kept {z s : State} (t : BitVec 16) (hz : Kept z s) : OutKept z (execDieTemperatureReading t s) := by
  unfold execDieTemperatureReading
  repeat' (with_reducible first
    | assumption | apply State.backwaterReading_kept | apply State.dieReading_kept | apply Kept.ite
    | apply Kept.foldl | apply OutKept.ite | apply OutKept.next | (intro _ _ _) | (intro _ _) | extract_lets | split)

theorem execDvfsInterval_kept {z s : State} (busy : Nat) (total : Nat) (hz : Kept z s) : OutKept z (execDvfsInterval busy total s) := by
  unfold execDvfsInterval
  repeat' (with_reducible first
    | assumption | apply State.retarget_kept | apply Kept.ite | apply Kept.foldl | apply OutKept.ite
    | apply OutKept.next | (intro _ _ _) | (intro _ _) | extract_lets | split | apply Kept.upd | rfl)

theorem execOperatingPointChange_kept {z s : State}  (hz : Kept z s) : OutKept z (execOperatingPointChange s) := by
  unfold execOperatingPointChange
  repeat' (with_reducible first
    | assumption | apply State.retarget_kept | apply Kept.ite | apply Kept.foldl | apply OutKept.ite
    | apply OutKept.next | (intro _ _ _) | (intro _ _) | extract_lets | split | refine Kept.of_ok (by assumption) ?_
    | refine Kept.of_raise (by assumption) ?_ | refine Kept.of_stall (by assumption) ?_
    | refine Kept.of_some (by assumption) ?_ | refine Kept.of_done (by assumption) ?_
    | refine Kept.of_fst (by assumption) ?_ | refine Kept.of_snd (by assumption) ?_ | apply Kept.upd | rfl)

theorem execStandbyPllLockTimeout_kept {z s : State}  (hz : Kept z s) : OutKept z (execStandbyPllLockTimeout s) := by
  unfold execStandbyPllLockTimeout
  repeat' (with_reducible first
    | assumption | apply State.countFault_kept | apply Kept.ite | apply Kept.foldl | apply OutKept.ite
    | apply OutKept.next | (intro _ _ _) | (intro _ _) | extract_lets | split | refine Kept.of_ok (by assumption) ?_
    | refine Kept.of_raise (by assumption) ?_ | refine Kept.of_stall (by assumption) ?_
    | refine Kept.of_some (by assumption) ?_ | refine Kept.of_done (by assumption) ?_
    | refine Kept.of_fst (by assumption) ?_ | refine Kept.of_snd (by assumption) ?_ | apply Kept.upd | rfl)

theorem State.updateCell_kept {z s : State} (c : CellId) (m : Nat) (hz : Kept z s) : Kept z (State.updateCell s c m) := by
  unfold State.updateCell
  repeat' (with_reducible first
    | assumption | apply State.c1_kept | apply Kept.ite | apply Kept.foldl | (intro _ _ _) | (intro _ _)
    | extract_lets | split | apply Kept.upd | rfl)

theorem execSentinelEstimateUpdate_kept {z s : State} (m : Vector Nat 4) (hz : Kept z s) : OutKept z (execSentinelEstimateUpdate m s) := by
  unfold execSentinelEstimateUpdate
  repeat' (with_reducible first
    | assumption | apply State.updateCell_kept | apply Kept.ite | apply Kept.foldl | apply OutKept.ite
    | apply OutKept.next | (intro _ _ _) | (intro _ _) | extract_lets | split | apply Kept.upd | rfl)

theorem State.beginArmed_kept {z s : State} (hz : Kept z s) : Kept z (State.beginArmed s) := by
  unfold State.beginArmed
  repeat' (with_reducible first
    | assumption | apply State.flag_kept | apply State.modCtx_kept | apply State.startBurst_kept | apply Kept.ite
    | apply Kept.foldl | (intro _ _ _))

theorem execSentinelCrossing_kept {z s : State} (c : CellId) (hz : Kept z s) : OutKept z (execSentinelCrossing c s) := by
  unfold execSentinelCrossing
  repeat' (with_reducible first
    | assumption | apply State.beginArmed_kept | apply State.retarget_kept | apply State.wakeArray_kept
    | apply State.signalAll_kept | apply Kept.ite | apply Kept.foldl | apply OutKept.ite | apply OutKept.next
    | (intro _ _ _) | (intro _ _) | extract_lets | split | apply Kept.upd | rfl)

theorem State.selectRange_kept {z s : State} (ch : Chan) (wide : Bool) (hz : Kept z s) : Kept z (State.selectRange s ch wide) := by
  unfold State.selectRange
  repeat' (with_reducible first
    | assumption | apply State.settleChannel_kept | apply State.modChan_kept | apply Kept.ite | apply Kept.foldl
    | (intro _ _ _) | (intro _ _) | extract_lets | split | apply Kept.upd | rfl)

theorem execRangeLoopInterval_kept {z s : State} (ch : Chan) (peakMg : Nat) (clip : Bool) (hz : Kept z s) :
    OutKept z (execRangeLoopInterval ch peakMg clip s) := by
  unfold execRangeLoopInterval
  refine .ite (.next hz) ?_
  extract_lets l quiet sel l2 g s1
  have h1 : Kept z s1 := Kept.upd hz rfl rfl rfl
  clear_value s1 sel
  cases sel with
  | none => exact .next h1
  | some w => exact .ite (.next (Kept.upd h1 rfl rfl rfl)) (.next (State.selectRange_kept _ _ h1))

theorem State.dueRanges_kept {z s : State}  (hz : Kept z s) : Kept z (State.dueRanges s) := by
  unfold State.dueRanges
  repeat' (with_reducible first
    | assumption | apply State.selectRange_kept | apply Kept.ite | apply Kept.foldl | (intro _ _ _) | (intro _ _)
    | extract_lets | split | refine Kept.of_ok (by assumption) ?_ | refine Kept.of_raise (by assumption) ?_
    | refine Kept.of_stall (by assumption) ?_ | refine Kept.of_some (by assumption) ?_
    | refine Kept.of_done (by assumption) ?_ | refine Kept.of_fst (by assumption) ?_
    | refine Kept.of_snd (by assumption) ?_ | apply Kept.upd | rfl)

theorem execLinkAmplitudeFallback_kept {z s : State} (p : Port) (hz : Kept z s) : OutKept z (execLinkAmplitudeFallback p s) := by
  unfold execLinkAmplitudeFallback
  repeat' (with_reducible first
    | assumption | apply State.modPort_kept | apply Kept.ite | apply Kept.foldl | apply OutKept.ite
    | apply OutKept.next)

end Sys2Proof.Machine
end

