-- ==== Sys2Proof/Laws/Kept/Twin.lean ====
section
/-! SUPPORT. What the operations of Machine/Twin.lean keep (Laws/Kept.lean). -/

namespace Sys2Proof.Machine

theorem State.yieldAddress_kept {z s : State}  (hz : Kept z s) : Kept z (State.yieldAddress s) := by
  unfold State.yieldAddress
  repeat' (with_reducible first
    | assumption | apply State.settleVigil_kept | apply Kept.ite | apply Kept.foldl | (intro _ _ _) | (intro _ _)
    | extract_lets | split | apply Kept.upd | rfl)

theorem State.markTwin_kept {z s : State}  (hz : Kept z s) : Kept z (State.markTwin s) := by
  unfold State.markTwin
  repeat' (with_reducible first
    | assumption | apply State.modSocket_kept | apply Kept.ite | apply Kept.foldl | (intro _ _ _) | (intro _ _)
    | extract_lets | split)

theorem State.meetTwin_kept {z s : State} (serial : BitVec 64) (hz : Kept z s) : Kept z (State.meetTwin s serial) := by
  unfold State.meetTwin
  repeat' (with_reducible first
    | assumption | apply State.markTwin_kept | apply State.yieldAddress_kept | apply State.formSystem_kept
    | apply State.sendMillrace_kept | apply Kept.ite | apply Kept.foldl | (intro _ _ _) | (intro _ _) | extract_lets
    | split | apply Kept.upd | rfl)

theorem State.onTwin_kept {z s : State} (m : Message) (hz : Kept z s) : Kept z (State.onTwin s m) := by
  unfold State.onTwin
  repeat' (with_reducible first
    | assumption | apply State.meetTwin_kept | apply Kept.ite)

theorem execTwin_kept {z s : State} (m : Message) (hz : Kept z s) : OutKept z (execTwin m s) := by
  unfold execTwin
  repeat' (with_reducible first
    | assumption | apply State.onTwin_kept | apply State.take_kept | apply Kept.ite | apply Kept.foldl
    | apply OutKept.ite | apply OutKept.next | (intro _ _ _) | (intro _ _))

end Sys2Proof.Machine
end

