-- ==== Sys2Proof/Laws/Kept/Ring.lean ====
section
/-! SUPPORT. What the operations of Machine/Ring.lean keep (Laws/Kept.lean). -/

namespace Sys2Proof.Machine

theorem State.markPair_kept {z s : State} (f : Frame) (hz : Kept z s) : Kept z (State.markPair s f) := by
  unfold State.markPair
  repeat' (with_reducible first
    | assumption | apply Res.seq_kept | apply Kept.ite | apply Kept.foldl | (intro _ _ _) | (intro _ _)
    | extract_lets | split | apply Kept.upd | rfl)

theorem State.queueRelay_kept {z s : State} (q : Port) (f : Frame) (hz : Kept z s) : Kept z (State.queueRelay s q f) := by
  unfold State.queueRelay
  repeat' (with_reducible first
    | assumption | apply State.modPort_kept | apply Kept.ite)

theorem State.correct_kept {z s : State} (p : Port) (f : Frame) (res : Nat) (hz : Kept z s) : Kept z (State.correct s p f res).1 := by
  unfold State.correct
  repeat' (with_reducible first
    | assumption | apply State.modPort_kept | apply Kept.ite | apply Kept.foldl | apply ResKept.bind
    | apply ResKept.ok | apply ResKept.raise | apply ResKept.stall | apply ResKept.ite | (intro _ _ _) | (intro _ _)
    | extract_lets | split | refine Kept.of_ok (by assumption) ?_ | refine Kept.of_raise (by assumption) ?_
    | refine Kept.of_stall (by assumption) ?_ | refine Kept.of_some (by assumption) ?_
    | refine Kept.of_done (by assumption) ?_ | refine Kept.of_fst (by assumption) ?_
    | refine Kept.of_snd (by assumption) ?_ | apply Kept.upd | rfl)

theorem State.relay_kept {z s : State} (p : Port) (f : Frame) (res : Nat) (hz : Kept z s) : Kept z (State.relay s p f res) := by
  unfold State.relay
  repeat' (with_reducible first
    | assumption | apply State.correct_kept | apply State.queueRelay_kept | apply Kept.ite)

theorem State.supervised_kept {z s : State} (p : Port) (f : Frame) (hz : Kept z s) : Kept z (State.supervised s p f) := by
  unfold State.supervised
  repeat' (with_reducible first
    | assumption | apply State.modPort_kept | apply Kept.ite | apply Kept.foldl | (intro _ _ _) | (intro _ _)
    | extract_lets | split | apply Kept.upd | rfl)

theorem State.consume_kept {z s : State} (p : Port) (f : Frame) (hz : Kept z s) : Kept z (State.consume s p f) := by
  unfold State.consume
  repeat' (with_reducible first
    | assumption | apply State.supervised_kept | apply State.modPort_kept | apply Kept.ite
    | apply Kept.upd | rfl)

theorem State.ownSource_kept {z s : State} (p : Port) (f : Frame) (hz : Kept z s) : Kept z (State.ownSource s p f) := by
  unfold State.ownSource
  repeat' (with_reducible first
    | assumption | apply State.meetTwin_kept | apply State.modPort_kept | apply Kept.ite)

theorem State.knownPair_kept {z s : State} (p : Port) (f : Frame) (at_ : Nat) (hz : Kept z s) : Kept z (State.knownPair s p f at_) := by
  unfold State.knownPair
  repeat' (with_reducible first
    | assumption | apply Res.seq_kept | apply State.modPort_kept | apply Kept.ite)

theorem State.newPair_kept {z s : State} (p : Port) (f : Frame) (res : Nat) (hz : Kept z s) : Kept z (State.newPair s p f res) := by
  unfold State.newPair
  repeat' (with_reducible first
    | assumption | apply State.consume_kept | apply State.relay_kept | apply State.markPair_kept | apply Kept.ite)

theorem State.dispose_kept {z s : State} (p : Port) (f : Frame) (res : Nat) (hz : Kept z s) : Kept z (State.dispose s p f res) := by
  unfold State.dispose
  repeat' (with_reducible first
    | assumption | apply State.newPair_kept | apply State.knownPair_kept | apply State.ownSource_kept
    | apply State.relay_kept | apply Kept.ite | apply Kept.foldl | (intro _ _ _) | (intro _ _) | extract_lets
    | split)

theorem State.disposeBad_kept {z s : State} (p : Port) (f : Frame) (res : Nat) (hz : Kept z s) : Kept z (State.disposeBad s p f res) := by
  unfold State.disposeBad
  repeat' (with_reducible first
    | assumption | apply State.relay_kept | apply State.modPort_kept | apply Kept.ite)

theorem State.arrive_kept {z s : State} (p : Port) (f : FrameIn) (res : Nat) (hz : Kept z s) : Kept z (State.arrive s p f res) := by
  unfold State.arrive
  repeat' (with_reducible first
    | assumption | apply State.disposeBad_kept | apply State.dispose_kept | apply State.modPort_kept
    | apply Kept.ite)

theorem execHsrFrame_kept {z s : State} (p : Port) (f : FrameIn) (hz : Kept z s) : OutKept z (execHsrFrame p f s) := by
  unfold execHsrFrame
  repeat' (with_reducible first
    | assumption | apply State.arrive_kept | apply State.takeFree_kept | apply Kept.ite | apply Kept.foldl
    | apply OutKept.ite | apply OutKept.next)

theorem execFollowUp_kept {z s : State} (p : Port) (f : FrameIn) (hz : Kept z s) : OutKept z (execFollowUp p f s) := by
  unfold execFollowUp
  repeat' (with_reducible first
    | assumption | apply State.arrive_kept | apply Kept.ite | apply Kept.foldl | apply OutKept.ite
    | apply OutKept.next)

theorem execDelayReq_kept {z s : State} (p : Port) (f : FrameIn) (residence : Nat) (hz : Kept z s) : OutKept z (execDelayReq p f residence s) := by
  unfold execDelayReq
  repeat' (with_reducible first
    | assumption | apply State.arrive_kept | apply Kept.ite | apply Kept.foldl | apply OutKept.ite
    | apply OutKept.next)

theorem execSupervisionFrame_kept {z s : State} (p : Port) (f : FrameIn) (hz : Kept z s) : OutKept z (execSupervisionFrame p f s) := by
  unfold execSupervisionFrame
  repeat' (with_reducible first
    | assumption | apply State.arrive_kept | apply Kept.ite | apply Kept.foldl | apply OutKept.ite
    | apply OutKept.next)

theorem execSupervisionSend_kept {z s : State}  (hz : Kept z s) : OutKept z (execSupervisionSend s) := by
  unfold execSupervisionSend
  repeat' (with_reducible first
    | assumption | apply State.sendOwn_kept | apply State.takeFree_kept | apply Kept.ite | apply Kept.foldl
    | apply OutKept.ite | apply OutKept.next | (intro _ _ _) | (intro _ _) | extract_lets | split
    | refine Kept.of_fst (by assumption) ?_ | refine Kept.of_snd (by assumption) ?_ | apply Kept.upd | rfl)

theorem execDuplicateEntryForget_kept {z s : State}  (hz : Kept z s) : OutKept z (execDuplicateEntryForget s) := by
  unfold execDuplicateEntryForget
  repeat' (with_reducible first
    | assumption | apply Res.seq_kept | apply Kept.ite | apply Kept.foldl | apply OutKept.ite | apply OutKept.next
    | (intro _ _ _) | (intro _ _) | extract_lets | split | apply Kept.upd | rfl)

theorem execNodeTableForget_kept {z s : State}  (hz : Kept z s) : OutKept z (execNodeTableForget s) := by
  unfold execNodeTableForget
  repeat' (with_reducible first
    | assumption | apply Kept.ite | apply Kept.foldl | apply OutKept.ite | apply OutKept.next | (intro _ _ _)
    | (intro _ _) | extract_lets | split | apply Kept.upd | rfl)

theorem execOwnFramePromotion_kept {z s : State} (p : Port) (hz : Kept z s) : OutKept z (execOwnFramePromotion p s) := by
  unfold execOwnFramePromotion
  repeat' (with_reducible first
    | assumption | apply State.modPort_kept | apply Kept.ite | apply Kept.foldl | apply OutKept.ite
    | apply OutKept.next)

theorem State.setPort_kept {z s : State} (p : Port) (st : PortState) (hz : Kept z s) : Kept z (State.setPort s p st) := by
  unfold State.setPort
  repeat' (with_reducible first
    | assumption | apply State.modPort_kept)

theorem State.portFinding_kept {z s : State} (p : Port) (st : PortState) (hz : Kept z s) : Kept z (State.portFinding s p st) := by
  unfold State.portFinding
  repeat' (with_reducible first
    | assumption | apply State.formSystem_kept)

theorem execPortUp_kept {z s : State} (p : Port) (amp24 : Bool) (master : Bool) (hz : Kept z s) : OutKept z (execPortUp p amp24 master s) := by
  unfold execPortUp
  repeat' (with_reducible first
    | assumption | apply State.portFinding_kept | apply State.setPort_kept | apply State.modPort_kept
    | apply Kept.ite | apply Kept.foldl | apply OutKept.ite | apply OutKept.next)

theorem execRelayStart_kept {z s : State} (p : Port) (hz : Kept z s) : OutKept z (execRelayStart p s) := by
  unfold execRelayStart
  repeat' (with_reducible first
    | assumption | apply State.modPort_kept | apply Kept.ite | apply Kept.foldl | apply OutKept.ite
    | apply OutKept.next)

theorem State.changeTimePort_kept {z s : State} (p : Port) (hz : Kept z s) : Kept z (State.changeTimePort s p) := by
  unfold State.changeTimePort
  repeat' (with_reducible first
    | assumption | apply Kept.ite | apply Kept.foldl | (intro _ _ _) | (intro _ _) | extract_lets | split
    | apply Kept.upd | rfl)

theorem State.dropSyncs_kept {z s : State} (p : Port) (hz : Kept z s) : Kept z (State.dropSyncs s p) := by
  unfold State.dropSyncs
  repeat' (with_reducible first
    | assumption | apply Kept.ite | apply Kept.foldl | (intro _ _ _) | (intro _ _) | extract_lets | split
    | apply Kept.upd | rfl)

theorem execLinkLoss_kept {z s : State} (p : Port) (hz : Kept z s) : OutKept z (execLinkLoss p s) := by
  unfold execLinkLoss
  repeat' (with_reducible first
    | assumption | apply State.dropSyncs_kept | apply State.changeTimePort_kept | apply State.portFinding_kept
    | apply State.setPort_kept | apply State.modPort_kept | apply Kept.ite | apply Kept.foldl | apply OutKept.ite
    | apply OutKept.next)

theorem State.transmit_kept {z s : State} (p : Port) (hz : Kept z s) : Kept z (State.transmit s p) := by
  unfold State.transmit
  repeat' (with_reducible first
    | assumption | apply State.modPort_kept | apply Kept.ite | apply Kept.foldl | (intro _ _ _) | (intro _ _)
    | extract_lets | split | refine Kept.of_ok (by assumption) ?_ | refine Kept.of_raise (by assumption) ?_
    | refine Kept.of_stall (by assumption) ?_ | refine Kept.of_some (by assumption) ?_
    | refine Kept.of_done (by assumption) ?_ | refine Kept.of_fst (by assumption) ?_
    | refine Kept.of_snd (by assumption) ?_ | apply Kept.upd | rfl)

end Sys2Proof.Machine
end

