-- ==== Sys2Proof/Laws/Kept/Keeper.lean ====
section
/-! SUPPORT. What the operations of Machine/Keeper.lean keep (Laws/Kept.lean). -/

namespace Sys2Proof.Machine

theorem State.setDivert_kept {z s : State} (hz : Kept z s) : Kept z (State.setDivert s) := by
  unfold State.setDivert
  repeat' (with_reducible first
    | assumption | apply State.divertBehind_kept | apply State.releaseBehind_kept | apply Kept.ite | apply Kept.foldl
    | (intro _ _ _) | (intro _ _) | extract_lets | split | apply Kept.upd | rfl)

theorem State.keeperHeard_kept {z s : State}  (hz : Kept z s) : Kept z (State.keeperHeard s) := by
  unfold State.keeperHeard
  repeat' (with_reducible first
    | assumption | apply State.hwMode_kept | apply State.signalAll_kept | apply Kept.ite | apply Kept.foldl
    | (intro _ _ _) | (intro _ _) | extract_lets | split | apply Kept.upd | rfl)

theorem execKeeperSilence_kept {z s : State}  (hz : Kept z s) : OutKept z (execKeeperSilence s) := by
  unfold execKeeperSilence
  repeat' (with_reducible first
    | assumption | apply State.setDivert_kept | apply State.hwMode_kept | apply Kept.ite | apply Kept.foldl
    | apply OutKept.ite | apply OutKept.next | (intro _ _ _) | (intro _ _) | extract_lets | split
    | refine Kept.of_ok (by assumption) ?_ | refine Kept.of_raise (by assumption) ?_
    | refine Kept.of_stall (by assumption) ?_ | refine Kept.of_some (by assumption) ?_
    | refine Kept.of_done (by assumption) ?_ | refine Kept.of_fst (by assumption) ?_
    | refine Kept.of_snd (by assumption) ?_ | apply Kept.upd | rfl)

theorem State.ledgerReport_kept {z s : State}  (hz : Kept z s) : Kept z (State.ledgerReport s) := by
  unfold State.ledgerReport
  repeat' (with_reducible first
    | assumption | apply State.formSystem_kept | apply Kept.ite | apply Kept.foldl | (intro _ _ _) | (intro _ _)
    | extract_lets | split | apply Kept.upd | rfl)

theorem State.endReplay_kept {z s : State}  (hz : Kept z s) : Kept z (State.endReplay s) := by
  unfold State.endReplay
  repeat' (with_reducible first
    | assumption | apply State.ledgerReport_kept | apply State.hwMode_kept | apply Kept.ite | apply Kept.foldl
    | (intro _ _ _) | (intro _ _) | extract_lets | split | apply Kept.upd | rfl)

theorem State.popLedger_kept {z s : State} (rest : List Finding) (hz : Kept z s) : Kept z (State.popLedger s rest) := by
  unfold State.popLedger
  repeat' (with_reducible first
    | assumption | apply State.endReplay_kept | apply State.releaseBehind_kept | apply Kept.ite | apply Kept.foldl
    | (intro _ _ _) | (intro _ _) | extract_lets | split | apply Kept.upd | rfl)

theorem execLedgerReplay_kept {z s : State} (hz : Kept z s) : OutKept z (execLedgerReplay s) := by
  unfold execLedgerReplay
  repeat' (with_reducible first
    | assumption | apply State.popLedger_kept | apply State.sendMillrace_kept | apply Kept.ite | apply Kept.foldl
    | apply OutKept.ite | apply OutKept.next | exact OutKept.fault | exact OutKept.refused | (intro _ _ _)
    | (intro _ _) | extract_lets | split | apply Kept.upd | rfl)

end Sys2Proof.Machine
end

