-- ==== Sys2Proof/Laws/Kept/Ptp.lean ====
section
/-! SUPPORT. What the operations of Machine/Ptp.lean keep (Laws/Kept.lean). -/

namespace Sys2Proof.Machine

theorem State.stepTime_kept {z s : State} (ofs : Int) (hz : Kept z s) : Kept z (State.stepTime s ofs) := by
  unfold State.stepTime
  repeat' (with_reducible first
    | assumption | apply State.planProof_kept | apply Kept.ite | apply Kept.foldl | (intro _ _ _) | (intro _ _)
    | extract_lets | split | refine Kept.of_some (by assumption) ?_ | refine Kept.of_fst (by assumption) ?_
    | refine Kept.of_snd (by assumption) ?_ | apply Kept.upd | rfl)

theorem State.takeStep_kept {z s : State} (hz : Kept z s) : Kept z (State.takeStep s) := by
  unfold State.takeStep
  repeat' (with_reducible first
    | assumption | apply State.stepTime_kept | apply Kept.ite | apply Kept.foldl | (intro _ _ _) | (intro _ _)
    | extract_lets | split)

theorem State.acquire_kept {z s : State} (ofs : Int) (hz : Kept z s) : Kept z (State.acquire s ofs) := by
  unfold State.acquire
  repeat' (with_reducible first
    | assumption | apply State.stepTime_kept | apply Kept.ite | apply Kept.foldl | (intro _ _ _) | (intro _ _)
    | extract_lets | split | apply Kept.upd | rfl)

theorem State.loseLock_kept {z s : State}  (hz : Kept z s) : Kept z (State.loseLock s) := by
  unfold State.loseLock
  repeat' (with_reducible first
    | assumption | apply Kept.ite | apply Kept.foldl | (intro _ _ _) | (intro _ _) | extract_lets | split
    | apply Kept.upd | rfl)

theorem State.trimServo_kept {z s : State}  (hz : Kept z s) : Kept z (State.trimServo s) := by
  unfold State.trimServo
  repeat' (with_reducible first
    | assumption | apply State.takeFree_kept | apply Kept.ite | apply Kept.foldl | (intro _ _ _) | (intro _ _)
    | extract_lets | split | refine Kept.of_fst (by assumption) ?_ | refine Kept.of_snd (by assumption) ?_
    | apply Kept.upd | rfl)

theorem State.servo_kept {z s : State} (ofs : Int) (hz : Kept z s) : Kept z (State.servo s ofs) := by
  unfold State.servo
  repeat' (with_reducible first
    | assumption | apply State.trimServo_kept | apply State.loseLock_kept | apply Kept.ite | apply Kept.foldl
    | (intro _ _ _) | (intro _ _) | extract_lets | split | apply Kept.upd | rfl)

theorem State.useSync_kept {z s : State} (master : Int) (loc : Int) (hz : Kept z s) : Kept z (State.useSync s master loc) := by
  unfold State.useSync
  repeat' (with_reducible first
    | assumption | apply State.servo_kept | apply State.acquire_kept | apply Kept.ite | apply Kept.foldl
    | (intro _ _ _) | (intro _ _) | extract_lets | split | apply Kept.upd | rfl)

theorem execSync_kept {z s : State} (p : Port) (src : BitVec 48) (_seqId : BitVec 16) (master : Int) (loc : Int) (hz : Kept z s) : OutKept z (execSync p src _seqId master loc s) := by
  unfold execSync
  repeat' (with_reducible first
    | assumption | apply State.useSync_kept | apply State.keeperHeard_kept | apply Kept.ite | apply Kept.foldl
    | apply OutKept.ite | apply OutKept.next | (intro _ _ _) | (intro _ _) | extract_lets | split | apply Kept.upd
    | rfl)

theorem execTimePortChange_kept {z s : State}  (hz : Kept z s) : OutKept z (execTimePortChange s) := by
  unfold execTimePortChange
  repeat' (with_reducible first
    | assumption | apply State.changeTimePort_kept | apply Kept.ite | apply Kept.foldl | apply OutKept.ite
    | apply OutKept.next | (intro _ _ _) | (intro _ _) | extract_lets | split)

theorem execSyncSilence_kept {z s : State}  (hz : Kept z s) : OutKept z (execSyncSilence s) := by
  unfold execSyncSilence
  repeat' (with_reducible first
    | assumption | apply State.loseLock_kept | apply Kept.ite | apply Kept.foldl | apply OutKept.ite
    | apply OutKept.next)

theorem State.emitOn_kept {z s : State} (p : Port) (dst : BitVec 48) (et : BitVec 16) (payload : List Byte) (hz : Kept z s) : Kept z (State.emitOn s p dst et payload) := by
  unfold State.emitOn
  repeat' (with_reducible first
    | assumption | apply Res.seq_kept | apply State.modPort_kept | apply Kept.ite | apply Kept.foldl | (intro _ _ _)
    | (intro _ _) | extract_lets | split | apply Kept.upd | rfl)

theorem execDelayReqSend_kept {z s : State}  (hz : Kept z s) : OutKept z (execDelayReqSend s) := by
  unfold execDelayReqSend
  repeat' (with_reducible first
    | assumption | apply State.emitOn_kept | apply State.takeFree_kept | apply Kept.ite | apply Kept.foldl
    | apply OutKept.ite | apply OutKept.next | (intro _ _ _) | (intro _ _) | extract_lets | split
    | refine Kept.of_ok (by assumption) ?_ | refine Kept.of_raise (by assumption) ?_
    | refine Kept.of_stall (by assumption) ?_ | refine Kept.of_some (by assumption) ?_
    | refine Kept.of_done (by assumption) ?_ | refine Kept.of_fst (by assumption) ?_
    | refine Kept.of_snd (by assumption) ?_ | apply Kept.upd | rfl)

theorem execDelayResp_kept {z s : State} (_p : Port) (src : BitVec 48) (delay : Nat) (hz : Kept z s) : OutKept z (execDelayResp _p src delay s) := by
  unfold execDelayResp
  repeat' (with_reducible first
    | assumption | apply State.take_kept | apply Kept.ite | apply Kept.foldl | apply OutKept.ite
    | apply OutKept.next | (intro _ _ _) | (intro _ _) | extract_lets | split | apply Kept.upd | rfl)

theorem State.heedAnnounce_kept {z s : State} (m : AnnounceMsg) (hz : Kept z s) : Kept z (State.heedAnnounce s m) := by
  unfold State.heedAnnounce
  repeat' (with_reducible first
    | assumption | apply Kept.ite | apply Kept.foldl | (intro _ _ _) | (intro _ _) | extract_lets | split
    | apply Kept.upd | rfl)

theorem State.dropKeeper_kept {z s : State}  (hz : Kept z s) : Kept z (State.dropKeeper s) := by
  unfold State.dropKeeper
  repeat' (with_reducible first
    | assumption | apply State.loseLock_kept | apply Kept.ite | apply Kept.foldl | (intro _ _ _) | (intro _ _)
    | extract_lets | split | apply Kept.upd | rfl)

theorem execAnnounce_kept {z s : State} (_p : Port) (m : AnnounceMsg) (hz : Kept z s) : OutKept z (execAnnounce _p m s) := by
  unfold execAnnounce
  repeat' (with_reducible first
    | assumption | apply State.dropKeeper_kept | apply State.heedAnnounce_kept | apply Kept.ite | apply Kept.foldl
    | apply OutKept.ite | apply OutKept.next | (intro _ _ _) | (intro _ _) | extract_lets | split)

theorem execAnnounceTimeout_kept {z s : State}  (hz : Kept z s) : OutKept z (execAnnounceTimeout s) := by
  unfold execAnnounceTimeout
  repeat' (with_reducible first
    | assumption | apply State.dropKeeper_kept | apply Kept.ite | apply Kept.foldl | apply OutKept.ite
    | apply OutKept.next | (intro _ _ _) | (intro _ _) | extract_lets | split)

end Sys2Proof.Machine
end

