-- ==== Sys2Proof/Laws/Kept/Census.lean ====
section
/-! SUPPORT. What the operations of Machine/Census.lean keep (Laws/Kept.lean). -/

namespace Sys2Proof.Machine

theorem State.onCensus_kept {z s : State} (m : Message) (hz : Kept z s) : Kept z (State.onCensus s m) := by
  unfold State.onCensus
  repeat' (with_reducible first
    | assumption | apply State.keeperHeard_kept | apply Kept.ite | apply Kept.foldl | (intro _ _ _) | (intro _ _)
    | extract_lets | split | apply Kept.upd | rfl)

theorem execCensus_kept {z s : State} (m : Message) (hz : Kept z s) : OutKept z (execCensus m s) := by
  unfold execCensus
  repeat' (with_reducible first
    | assumption | apply State.onCensus_kept | apply State.take_kept | apply Kept.ite | apply Kept.foldl
    | apply OutKept.ite | apply OutKept.next | (intro _ _ _) | (intro _ _))

theorem State.markNeighbours_kept {z s : State} (n : Option (BitVec 6) × Option (BitVec 6)) (hz : Kept z s) : Kept z (State.markNeighbours s n) := by
  unfold State.markNeighbours
  repeat' (with_reducible first
    | assumption | apply Kept.ite | apply Kept.foldl | (intro _ _ _) | (intro _ _) | extract_lets | split
    | apply Kept.upd | rfl)

theorem State.ringBuddies_kept {z s : State} (n : Option (BitVec 6) × Option (BitVec 6)) (hz : Kept z s) : Kept z (State.ringBuddies s n) := by
  unfold State.ringBuddies
  repeat' (with_reducible first
    | assumption | apply State.settleVigil_kept | apply Kept.ite | apply Kept.foldl | (intro _ _ _) | (intro _ _)
    | extract_lets | split | apply Kept.upd | rfl)

theorem State.acceptCensus_kept {z s : State} (c : CensusDue) (hz : Kept z s) : Kept z (State.acceptCensus s c) := by
  unfold State.acceptCensus
  repeat' (with_reducible first
    | assumption | apply State.ringBuddies_kept | apply State.markNeighbours_kept | apply Kept.ite
    | apply Kept.foldl | (intro _ _ _) | (intro _ _) | extract_lets | split | refine Kept.of_ok (by assumption) ?_
    | refine Kept.of_raise (by assumption) ?_ | refine Kept.of_stall (by assumption) ?_
    | refine Kept.of_some (by assumption) ?_ | refine Kept.of_done (by assumption) ?_
    | refine Kept.of_fst (by assumption) ?_ | refine Kept.of_snd (by assumption) ?_ | apply Kept.upd | rfl)

theorem execCensusAnswer_kept {z s : State}  (hz : Kept z s) : OutKept z (execCensusAnswer s) := by
  unfold execCensusAnswer
  repeat' (with_reducible first
    | assumption | apply State.acceptCensus_kept | apply State.sendMillrace_kept | apply Kept.ite | apply Kept.foldl
    | apply OutKept.ite | apply OutKept.next | (intro _ _ _) | (intro _ _) | extract_lets | split
    | refine Kept.of_ok (by assumption) ?_ | refine Kept.of_raise (by assumption) ?_
    | refine Kept.of_stall (by assumption) ?_ | refine Kept.of_some (by assumption) ?_
    | refine Kept.of_done (by assumption) ?_ | refine Kept.of_fst (by assumption) ?_
    | refine Kept.of_snd (by assumption) ?_ | apply Kept.upd | rfl)

end Sys2Proof.Machine
end

