-- ==== Sys2Proof/Laws/Kept/Roll.lean ====
section
/-! SUPPORT. What the operations of Machine/Roll.lean keep (Laws/Kept.lean). -/

namespace Sys2Proof.Machine

theorem State.settleSpeed_kept {z s : State}  (hz : Kept z s) : Kept z (State.settleSpeed s) := by
  unfold State.settleSpeed
  repeat' (with_reducible first
    | assumption | apply State.flagAll_kept | apply Kept.ite | apply Kept.foldl | (intro _ _ _) | (intro _ _)
    | extract_lets | split | apply Kept.upd | rfl)

theorem execSpeedSourceChange_kept {z s : State}  (hz : Kept z s) : OutKept z (execSpeedSourceChange s) := by
  unfold execSpeedSourceChange
  repeat' (with_reducible first
    | assumption | apply State.settleSpeed_kept | apply Kept.ite | apply Kept.foldl | apply OutKept.ite
    | apply OutKept.next)

theorem State.takeRoll_kept {z s : State} (body : List Byte) (v : BitVec 32) (hz : Kept z s) : Kept z (State.takeRoll s body v) := by
  unfold State.takeRoll
  repeat' (with_reducible first
    | assumption | apply State.settleSpeed_kept | apply State.wakeArray_kept | apply State.signalAll_kept
    | apply Kept.ite | apply Kept.foldl | (intro _ _ _) | (intro _ _) | extract_lets | split | apply Kept.upd | rfl)

theorem State.onRoll_kept {z s : State} (m : Message) (hz : Kept z s) : Kept z (State.onRoll s m) := by
  unfold State.onRoll
  repeat' (with_reducible first
    | assumption | apply State.takeRoll_kept | apply State.keeperHeard_kept | apply Kept.ite | apply Kept.foldl
    | (intro _ _ _) | (intro _ _) | extract_lets | split)

theorem execRoll_kept {z s : State} (m : Message) (hz : Kept z s) : OutKept z (execRoll m s) := by
  unfold execRoll
  repeat' (with_reducible first
    | assumption | apply State.onRoll_kept | apply State.take_kept | apply Kept.ite | apply Kept.foldl
    | apply OutKept.ite | apply OutKept.next | (intro _ _ _) | (intro _ _))

theorem execTimeAux_kept {z s : State} (m : Message) (hz : Kept z s) : OutKept z (execTimeAux m s) := by
  unfold execTimeAux
  repeat' (with_reducible first
    | assumption | apply State.take_kept | apply Kept.ite | apply Kept.foldl | apply OutKept.ite
    | apply OutKept.next | (intro _ _ _) | (intro _ _) | extract_lets | split | apply Kept.upd | rfl)

end Sys2Proof.Machine
end

