-- ==== Sys2Proof/Laws/Kept/Delivery.lean ====
section
/-! SUPPORT. What the operations of Machine/Delivery.lean keep (Laws/Kept.lean). -/

namespace Sys2Proof.Machine

theorem State.refuse_kept {z s : State} (b : List Byte) (code : Nat) (hz : Kept z s) : Kept z (State.refuse s b code) := by
  unfold State.refuse
  repeat' (with_reducible first
    | assumption | apply State.c1_kept | apply State.formSystem_kept | apply Kept.ite | apply Kept.foldl
    | (intro _ _ _) | (intro _ _) | extract_lets | split | apply Kept.upd | rfl)

theorem State.sendAck_kept {z s : State} (x : Staging) (status : Byte) (hz : Kept z s) : Kept z (State.sendAck s x status) := by
  unfold State.sendAck
  repeat' (with_reducible first
    | assumption | apply State.sendMillrace_kept)

theorem State.beginStaging_kept {z s : State} (l : List Staging) (hz : Kept z s) : Kept z (s.beginStaging l) := by
  induction l generalizing s with
  | nil => exact Kept.upd hz rfl rfl rfl
  | cons x l ih =>
    unfold State.beginStaging
    split
    · exact ih (State.sendAck_kept x 1 hz)
    · exact Kept.upd hz rfl rfl rfl

theorem State.stage_kept {z s : State} (x : Staging) (hz : Kept z s) : Kept z (State.stage s x) := by
  unfold State.stage
  repeat' (with_reducible first
    | assumption | apply State.beginStaging_kept | apply Kept.ite | apply Kept.foldl | (intro _ _ _) | (intro _ _)
    | extract_lets | split | apply Kept.upd | rfl)

theorem execStagingComplete_kept {z s : State}  (hz : Kept z s) : OutKept z (execStagingComplete s) := by
  unfold execStagingComplete
  repeat' (with_reducible first
    | assumption | apply State.beginStaging_kept | apply State.sendAck_kept | apply State.pair_kept | apply Kept.ite
    | apply Kept.foldl | apply OutKept.ite | apply OutKept.next | (intro _ _ _) | (intro _ _) | extract_lets | split
    | refine Kept.of_ok (by assumption) ?_ | refine Kept.of_raise (by assumption) ?_
    | refine Kept.of_stall (by assumption) ?_ | refine Kept.of_some (by assumption) ?_
    | refine Kept.of_done (by assumption) ?_ | refine Kept.of_fst (by assumption) ?_
    | refine Kept.of_snd (by assumption) ?_ | apply Kept.upd | rfl)

theorem State.arrived_kept {z s : State} (b : List Byte) (transfer : BitVec 16) (source : BitVec 48) (hz : Kept z s) : Kept z (State.arrived s b transfer source) := by
  unfold State.arrived
  repeat' (with_reducible first
    | assumption | apply State.stage_kept | apply State.refuse_kept | apply Kept.ite | apply Kept.foldl
    | (intro _ _ _) | (intro _ _) | extract_lets | split)

theorem State.endTransfer_kept {z s : State}  (hz : Kept z s) : Kept z (State.endTransfer s) := by
  unfold State.endTransfer
  repeat' (with_reducible first
    | assumption | apply Kept.ite | apply Kept.foldl | (intro _ _ _) | (intro _ _) | extract_lets | split
    | apply Kept.upd | rfl)

theorem State.segment_kept {z s : State} (x : Transfer) (total : Nat) (off : Nat) (bytes : List Byte) (hz : Kept z s) : Kept z (State.segment s x total off bytes) := by
  unfold State.segment
  repeat' (with_reducible first
    | assumption | apply State.endTransfer_kept | apply State.arrived_kept | apply Kept.ite | apply Kept.foldl
    | (intro _ _ _) | (intro _ _) | extract_lets | split | refine Kept.of_ok (by assumption) ?_
    | refine Kept.of_raise (by assumption) ?_ | refine Kept.of_stall (by assumption) ?_
    | refine Kept.of_some (by assumption) ?_ | refine Kept.of_done (by assumption) ?_
    | refine Kept.of_fst (by assumption) ?_ | refine Kept.of_snd (by assumption) ?_ | apply Kept.upd | rfl)

theorem State.abandon_kept {z s : State}  (hz : Kept z s) : Kept z (State.abandon s) := by
  unfold State.abandon
  repeat' (with_reducible first
    | assumption | apply State.endTransfer_kept | apply Kept.ite | apply Kept.foldl | (intro _ _ _) | (intro _ _)
    | extract_lets | split | apply Kept.upd | rfl)

theorem State.onBundle_kept {z s : State} (m : Message) (hz : Kept z s) : Kept z (State.onBundle s m) := by
  unfold State.onBundle
  repeat' (with_reducible first
    | assumption | apply State.abandon_kept | apply State.segment_kept | apply State.keeperHeard_kept
    | apply Kept.ite | apply Kept.foldl | (intro _ _ _) | (intro _ _) | extract_lets | split)

theorem execBundle_kept {z s : State} (m : Message) (hz : Kept z s) : OutKept z (execBundle m s) := by
  unfold execBundle
  repeat' (with_reducible first
    | assumption | apply State.keeperHeard_kept | apply State.onBundle_kept | apply State.take_kept | apply Kept.ite | apply Kept.foldl
    | apply OutKept.ite | apply OutKept.next | (intro _ _ _) | (intro _ _))

theorem execBundleTransferTimeout_kept {z s : State} (m : Message) (hz : Kept z s) : OutKept z (execBundleTransferTimeout m s) := by
  unfold execBundleTransferTimeout
  repeat' (with_reducible first
    | assumption | apply State.abandon_kept | apply State.keeperHeard_kept | apply State.take_kept | apply Kept.ite
    | apply Kept.foldl | apply OutKept.ite | apply OutKept.next | (intro _ _ _) | (intro _ _))

theorem execReassemblyEraseComplete_kept {z s : State}  (hz : Kept z s) : OutKept z (execReassemblyEraseComplete s) := by
  unfold execReassemblyEraseComplete
  repeat' (with_reducible first
    | assumption | apply Kept.ite | apply Kept.foldl | apply OutKept.ite | apply OutKept.next | (intro _ _ _)
    | (intro _ _) | extract_lets | split | apply Kept.upd | rfl)

theorem State.onRestart_kept {z s : State} (m : Message) (hz : Kept z s) : Kept z (State.onRestart s m) := by
  unfold State.onRestart
  repeat' (with_reducible first
    | assumption | apply State.refuse_kept | apply State.decideStop_kept | apply Kept.ite | apply Kept.foldl
    | (intro _ _ _) | (intro _ _) | extract_lets | split)

theorem execRestart_kept {z s : State} (m : Message) (hz : Kept z s) : OutKept z (execRestart m s) := by
  unfold execRestart
  repeat' (with_reducible first
    | assumption | apply State.onRestart_kept | apply State.take_kept | apply Kept.ite | apply Kept.foldl
    | apply OutKept.ite | apply OutKept.next | apply ResKept.bind | apply ResKept.ok | apply ResKept.raise
    | apply ResKept.stall | apply ResKept.ite | (intro _ _ _) | (intro _ _))

end Sys2Proof.Machine
end

