-- ==== Sys2Proof/Laws/Kept/Outbox.lean ====
section
/-! SUPPORT. What the operations of Machine/Outbox.lean keep (Laws/Kept.lean). -/

namespace Sys2Proof.Machine

theorem State.lockTrip_kept {z s : State} (p : Phys) (cycles out back : Nat) (hz : Kept z s) : Kept z (State.lockTrip s p cycles out back) := by
  unfold State.lockTrip
  repeat' (with_reducible first
    | assumption | apply State.forward_kept | apply State.weirAccess_kept)

theorem State.lockRead_kept {z s : State} (p : Phys) (n : Nat) (hz : Kept z s) : Kept z (State.lockRead s p n) := by
  unfold State.lockRead
  repeat' (with_reducible first
    | assumption | apply State.lockTrip_kept | apply State.readsAt_kept | apply State.takeFate_kept
    | apply State.touchBank_kept | apply Kept.ite)

theorem State.writeTail_kept {z s : State} (p : Phys) (n : BitVec 16) (hz : Kept z s) : Kept z (State.writeTail s p n) := by
  unfold State.writeTail
  repeat' (with_reducible first
    | assumption | apply State.countMerge_kept | apply State.lockTrip_kept | apply State.poke_kept
    | apply State.snoopPosted_kept | apply State.touchBank_kept | apply Kept.ite)

theorem State.openRun_kept {z s : State}  (hz : Kept z s) : Kept z (State.openRun s) := by
  unfold State.openRun
  repeat' (with_reducible first
    | assumption | apply State.formSystem_kept | apply State.sendFinding_kept | apply Kept.ite | apply Kept.foldl
    | (intro _ _ _) | (intro _ _) | extract_lets | split | apply Kept.upd | rfl)

theorem State.fixVerdict_kept {z s : State} (t : Ctx) (v : Verdict) (hz : Kept z s) : Kept z (State.fixVerdict s t v) := by
  unfold State.fixVerdict
  repeat' (with_reducible first
    | assumption | apply State.openRun_kept | apply State.decideHale_kept | apply State.modFind_kept
    | apply Kept.ite | apply Kept.foldl | (intro _ _ _) | (intro _ _) | extract_lets | split | apply Kept.upd | rfl)

theorem State.takeRecord_kept {z s : State} (t : Ctx) (p : Phys) (hz : Kept z s) : Kept z (State.takeRecord s t p) := by
  unfold State.takeRecord
  repeat' (with_reducible first
    | assumption | apply State.fixVerdict_kept | apply State.formFinding_kept)

theorem State.refuseRecord_kept {z s : State} (t : Ctx) (slot : Nat) (reason : Nat) (hz : Kept z s) : Kept z (State.refuseRecord s t slot reason) := by
  unfold State.refuseRecord
  repeat' (with_reducible first
    | assumption | apply State.c1_kept | apply State.modFind_kept)

theorem State.recordRead_kept {z s : State} (r : Phys) (hz : Kept z s) : Kept z (State.recordRead s r) := by
  unfold State.recordRead
  repeat' (with_reducible first
    | assumption | apply State.lockRead_kept)

theorem State.nextRecord_kept {z s : State} (t : Ctx) (p : Phys) (hz : Kept z s) : Kept z (State.nextRecord s t p) := by
  unfold State.nextRecord
  repeat' (with_reducible first
    | assumption | apply State.refuseRecord_kept | apply State.takeRecord_kept | apply State.writeTail_kept
    | apply State.recordRead_kept | apply State.modFind_kept | apply Kept.ite | apply Kept.foldl | (intro _ _ _)
    | (intro _ _) | extract_lets | split)

theorem execOutboxRecordTake_kept {z s : State} (t : Ctx) (hz : Kept z s) : OutKept z (execOutboxRecordTake t s) := by
  unfold execOutboxRecordTake
  repeat' (with_reducible first
    | assumption | apply State.nextRecord_kept | apply State.lockRead_kept | apply State.recordCause_kept
    | apply State.haltCtx_kept | apply State.takeFree_kept | apply Kept.ite | apply Kept.foldl | apply OutKept.ite
    | apply OutKept.next | (intro _ _ _) | (intro _ _) | extract_lets | split)

end Sys2Proof.Machine
end

