-- ==== Sys2Proof/Laws/Kept/Catchment.lean ====
section
/-! SUPPORT. What the operations of Machine/Catchment.lean keep (Laws/Kept.lean). -/

namespace Sys2Proof.Machine

theorem State.feedChannel_kept {z s : State} (ch : Chan) (bits : BitVec 40) (si : BitVec 64) (jump clip settle lane : Bool) (hz : Kept z s) : Kept z (State.feedChannel s ch bits si jump clip settle lane) := by
  unfold State.feedChannel
  repeat' (with_reducible first
    | assumption | apply State.modChan_kept | apply State.pushSample_kept | apply State.settle_kept | apply Kept.ite
    | apply Kept.foldl | (intro _ _ _) | (intro _ _) | extract_lets | split | apply Kept.upd | rfl)

theorem State.spoilAxis_kept {z s : State} (ch : Chan) (hz : Kept z s) : Kept z (State.spoilAxis s ch) := by
  unfold State.spoilAxis
  repeat' (with_reducible first
    | assumption | apply Kept.ite | apply Kept.foldl | (intro _ _ _) | (intro _ _) | extract_lets | split
    | refine Kept.of_ok (by assumption) ?_ | refine Kept.of_raise (by assumption) ?_
    | refine Kept.of_stall (by assumption) ?_ | refine Kept.of_some (by assumption) ?_
    | refine Kept.of_done (by assumption) ?_ | refine Kept.of_fst (by assumption) ?_
    | refine Kept.of_snd (by assumption) ?_ | apply Kept.upd | rfl)

theorem State.flagChannel_kept {z s : State} (ch : Chan) (i : Nat) (hz : Kept z s) : Kept z (State.flagChannel s ch i) := by
  unfold State.flagChannel
  repeat' (with_reducible first
    | assumption | apply State.flagAll_kept)

theorem State.goodChannel_kept {z s : State} (l : Lane) (b : List Byte) (si : BitVec 64) (jump : Bool) (j : Fin 4) (hz : Kept z s) : Kept z (State.goodChannel s l b si jump j) := by
  unfold State.goodChannel
  repeat' (with_reducible first
    | assumption | apply State.feedChannel_kept | apply State.flagChannel_kept | apply State.modChan_kept
    | apply State.spoilAxis_kept | apply Kept.ite)

theorem State.badChannel_kept {z s : State} (l : Lane) (si : BitVec 64) (jump : Bool) (j : Fin 4) (hz : Kept z s) : Kept z (State.badChannel s l si jump j) := by
  unfold State.badChannel
  repeat' (with_reducible first
    | assumption | apply State.feedChannel_kept | apply State.flagChannel_kept | apply State.spoilAxis_kept)

theorem State.slowWord_kept {z s : State} (counter : Nat) (v : BitVec 16) (hz : Kept z s) : Kept z (State.slowWord s counter v) := by
  unfold State.slowWord
  repeat' (with_reducible first
    | assumption | apply State.modChan_kept | apply Kept.ite | apply Kept.foldl | (intro _ _ _) | (intro _ _)
    | extract_lets | split | apply Kept.upd | rfl)

theorem State.modLane_kept {z s : State} (l : Lane) (f : LaneState → LaneState) (hz : Kept z s) : Kept z (State.modLane s l f) := by
  unfold State.modLane
  repeat' (with_reducible first
    | assumption | apply Kept.ite | apply Kept.foldl | (intro _ _ _) | (intro _ _) | extract_lets | split
    | apply Kept.upd | rfl)

theorem State.newFrame_kept {z s : State} (si : BitVec 64) (hz : Kept z s) : Kept z (State.newFrame s si) := by
  unfold State.newFrame
  repeat' (with_reducible first
    | assumption | apply Kept.ite | apply Kept.foldl | (intro _ _ _) | (intro _ _) | extract_lets | split
    | refine Kept.of_some (by assumption) ?_ | apply Kept.upd | rfl)

theorem State.goodFrame_kept {z s : State} (l : Lane) (b : List Byte) (hz : Kept z s) : Kept z (State.goodFrame s l b) := by
  unfold State.goodFrame
  repeat' (with_reducible first
    | assumption | apply State.goodChannel_kept | apply State.modLane_kept | apply State.newFrame_kept
    | apply State.slowWord_kept | apply Kept.ite | apply Kept.foldl | (intro _ _ _))

theorem State.badFrame_kept {z s : State} (l : Lane) (hz : Kept z s) : Kept z (State.badFrame s l) := by
  unfold State.badFrame
  repeat' (with_reducible first
    | assumption | apply State.badChannel_kept | apply State.modLane_kept | apply State.newFrame_kept
    | apply Kept.ite | apply Kept.foldl | (intro _ _ _))

theorem State.laneDown_kept {z s : State} (l : Lane) (hz : Kept z s) : Kept z (State.laneDown s l) := by
  unfold State.laneDown
  repeat' (with_reducible first
    | assumption | apply State.modLane_kept | apply State.degradeWhere_kept | apply State.takeFault_kept)

theorem execLaneFrame_kept {z s : State} (l : Lane) (codeOk : Bool) (bytes : Vector Byte 31) (hz : Kept z s) : OutKept z (execLaneFrame l codeOk bytes s) := by
  unfold execLaneFrame
  repeat' (with_reducible first
    | assumption | apply State.laneDown_kept | apply State.badFrame_kept | apply State.goodFrame_kept
    | apply State.modLane_kept | apply State.countFault_kept | apply Kept.ite | apply Kept.foldl | apply OutKept.ite
    | apply OutKept.next)

theorem execLaneRetrain_kept {z s : State} (l : Lane) (ok : Bool) (hz : Kept z s) : OutKept z (execLaneRetrain l ok s) := by
  unfold execLaneRetrain
  repeat' (with_reducible first
    | assumption | apply State.modLane_kept | apply Kept.ite | apply Kept.foldl | apply OutKept.ite
    | apply OutKept.next)

theorem State.changeRange_kept {z s : State} (ch : Chan) (hz : Kept z s) : Kept z (State.changeRange s ch) := by
  unfold State.changeRange
  repeat' (with_reducible first
    | assumption | apply State.modChan_kept | apply State.settle_kept | apply State.spoilAxis_kept)

theorem execRangeChange_kept {z s : State} (ch : Chan) (hz : Kept z s) : OutKept z (execRangeChange ch s) := by
  unfold execRangeChange
  repeat' (with_reducible first
    | assumption | apply State.changeRange_kept | apply State.modChan_kept | apply State.settleChannel_kept
    | apply Kept.ite | apply Kept.foldl | apply OutKept.ite | apply OutKept.next)

theorem State.evaluateAxis_kept {z s : State} (m : AxisMeas) (hz : Kept z s) : Kept z (State.evaluateAxis s m) := by
  unfold State.evaluateAxis
  repeat' (with_reducible first
    | assumption | apply State.modChan_kept | apply State.takeFree_kept | apply Kept.ite | apply Kept.foldl
    | (intro _ _ _) | (intro _ _) | extract_lets | split | refine Kept.of_some (by assumption) ?_
    | refine Kept.of_fst (by assumption) ?_ | refine Kept.of_snd (by assumption) ?_ | apply Kept.upd | rfl)

theorem State.showActuation_kept {z s : State} (cell : Option CellId) (hz : Kept z s) : Kept z (State.showActuation s cell) := by
  unfold State.showActuation
  repeat' (with_reducible first
    | assumption | apply State.modChan_kept | apply Kept.ite | apply Kept.foldl | (intro _ _ _))

theorem State.driveAxis_kept {z s : State} (ch : Chan) (hz : Kept z s) : Kept z (State.driveAxis s ch) := by
  unfold State.driveAxis
  repeat' (with_reducible first
    | assumption | apply State.showActuation_kept | apply State.modChan_kept | apply Kept.ite | apply Kept.foldl
    | (intro _ _ _) | (intro _ _) | extract_lets | split | apply Kept.upd | rfl)

theorem execSelfTestAxis_kept {z s : State} (ch : Chan) (prev : Option AxisMeas) (hz : Kept z s) : OutKept z (execSelfTestAxis ch prev s) := by
  unfold execSelfTestAxis
  repeat' (with_reducible first
    | assumption | apply State.driveAxis_kept | apply State.evaluateAxis_kept | apply Kept.ite | apply Kept.foldl
    | apply OutKept.ite | apply OutKept.next | (intro _ _ _) | (intro _ _) | extract_lets | split)

end Sys2Proof.Machine
end

