-- ==== Sys2Proof/Laws/Kept/ModeEvents.lean ====
section
/-! SUPPORT. What the operations of Machine/ModeEvents.lean keep (Laws/Kept.lean). -/

namespace Sys2Proof.Machine

theorem State.grantBurst_kept {z s : State} (t : Ctx) (hz : Kept z s) : Kept z (State.grantBurst s t) := by
  unfold State.grantBurst
  repeat' (with_reducible first
    | assumption | apply State.endBurst_kept | apply Kept.ite)

theorem State.commitMode_kept {z s : State} (t : Ctx) (mask : Byte) (hz : Kept z s) : Kept z (State.commitMode s t mask) := by
  unfold State.commitMode
  repeat' (with_reducible first
    | assumption | apply State.grantBurst_kept | apply State.retarget_kept | apply State.planProof_kept
    | apply State.applyAct_kept | apply Kept.ite | apply Kept.foldl | (intro _ _ _) | (intro _ _) | extract_lets
    | split | apply Kept.upd | rfl)

theorem execModeCommit_kept {z s : State} (t : Ctx) (hz : Kept z s) : OutKept z (execModeCommit t s) := by
  unfold execModeCommit
  repeat' (with_reducible first
    | assumption | apply State.commitMode_kept | apply State.takeSync_kept | apply State.modCtx_kept
    | apply Kept.ite | apply Kept.foldl | apply OutKept.ite | apply OutKept.next | (intro _ _ _) | (intro _ _)
    | extract_lets | split)

theorem State.openWindow_kept {z s : State} (scheduled : Bool) (who : Option Ctx) (hz : Kept z s) : Kept z (State.openWindow s scheduled who) := by
  unfold State.openWindow
  repeat' (with_reducible first
    | assumption | apply State.checkFloor_kept | apply State.retarget_kept | apply State.hwMode_kept
    | apply Kept.ite | apply Kept.foldl | (intro _ _ _) | (intro _ _) | extract_lets | split | apply Kept.upd | rfl)

theorem execProofWindowOpen_kept {z s : State}  (hz : Kept z s) : OutKept z (execProofWindowOpen s) := by
  unfold execProofWindowOpen
  repeat' (with_reducible first
    | assumption | apply State.openWindow_kept | apply Kept.ite | apply Kept.foldl | apply OutKept.ite
    | apply OutKept.next | (intro _ _ _) | (intro _ _) | extract_lets | split)

theorem State.tellRequester_kept {z s : State} (w : ProofWindow) (hz : Kept z s) : Kept z (State.tellRequester s w) := by
  unfold State.tellRequester
  repeat' (with_reducible first
    | assumption | apply State.modFind_kept | apply Kept.ite | apply Kept.foldl | (intro _ _ _) | (intro _ _)
    | extract_lets | split)

theorem State.closeWindow_kept {z s : State} (w : ProofWindow) (hz : Kept z s) : Kept z (State.closeWindow s w) := by
  unfold State.closeWindow
  repeat' (with_reducible first
    | assumption | apply State.dueRanges_kept | apply State.formSystem_kept | apply State.hwMode_kept
    | apply State.planProof_kept | apply State.retarget_kept | apply State.showActuation_kept
    | apply State.tellRequester_kept | apply Kept.ite | apply Kept.foldl | (intro _ _ _) | (intro _ _) | extract_lets
    | split | refine Kept.of_fst (by assumption) ?_ | refine Kept.of_snd (by assumption) ?_ | apply Kept.upd | rfl)

theorem execProofWindowEnd_kept {z s : State} (last : Option AxisMeas) (hz : Kept z s) : OutKept z (execProofWindowEnd last s) := by
  unfold execProofWindowEnd
  repeat' (with_reducible first
    | assumption | apply State.closeWindow_kept | apply State.evaluateAxis_kept | apply Kept.ite | apply Kept.foldl
    | apply OutKept.ite | apply OutKept.next | (intro _ _ _) | (intro _ _) | extract_lets | split
    | refine Kept.of_ok (by assumption) ?_ | refine Kept.of_raise (by assumption) ?_
    | refine Kept.of_stall (by assumption) ?_ | refine Kept.of_some (by assumption) ?_
    | refine Kept.of_done (by assumption) ?_ | refine Kept.of_fst (by assumption) ?_
    | refine Kept.of_snd (by assumption) ?_ | apply Kept.upd | rfl)

theorem execArrayPark_kept {z s : State} (hz : Kept z s) : OutKept z (execArrayPark s) := by
  unfold execArrayPark
  repeat' (with_reducible first
    | assumption | apply State.drainUnit_kept | apply State.retainGroup_kept | apply Kept.ite | apply Kept.foldl
    | apply OutKept.ite | apply OutKept.next | exact OutKept.fault | exact OutKept.refused | (intro _ _ _)
    | (intro _ _) | extract_lets | split | apply Kept.upd | rfl)

theorem execPoolWakeComplete_kept {z s : State} (g : Group) (hz : Kept z s) : OutKept z (execPoolWakeComplete g s) := by
  unfold execPoolWakeComplete
  repeat' (with_reducible first
    | assumption | apply State.loseCycles_kept | apply State.modBank_kept | apply Kept.ite | apply Kept.foldl
    | apply OutKept.ite | apply OutKept.next | (intro _ _ _))

theorem execCaptureLenReached_kept {z s : State} (t : Ctx) (hz : Kept z s) : OutKept z (execCaptureLenReached t s) := by
  unfold execCaptureLenReached
  repeat' (with_reducible first
    | assumption | apply State.retarget_kept | apply State.endBurst_kept | apply Kept.ite | apply Kept.foldl
    | apply OutKept.ite | apply OutKept.next)

end Sys2Proof.Machine
end

