-- ==== Sys2Proof/Laws/Kept/FabricEvents.lean ====
section
/-! SUPPORT. What the operations of Machine/FabricEvents.lean keep (Laws/Kept.lean). -/

namespace Sys2Proof.Machine

theorem execRegionTreeEdge_kept {z s : State} (r : Region) (hz : Kept z s) : OutKept z (execRegionTreeEdge r s) := by
  unfold execRegionTreeEdge
  repeat' (with_reducible first
    | assumption | apply State.modRegion_kept | apply Kept.ite | apply Kept.foldl | apply OutKept.ite
    | apply OutKept.next)

theorem execClockSwitchComplete_kept {z s : State} (r : Region) (hz : Kept z s) : OutKept z (execClockSwitchComplete r s) := by
  unfold execClockSwitchComplete
  repeat' (with_reducible first
    | assumption | apply State.modRegion_kept | apply Kept.ite | apply Kept.foldl | apply OutKept.ite
    | apply OutKept.next)

theorem State.deliverTap_kept {z s : State} (r : Region) (b : Bool) (hz : Kept z s) : Kept z (State.deliverTap s r b) := by
  unfold State.deliverTap
  repeat' (with_reducible first
    | assumption | apply State.pushBit_kept | apply Kept.ite | apply Kept.foldl | (intro _ _ _))

theorem execTapEvent_kept {z s : State} (r : Region) (hz : Kept z s) : OutKept z (execTapEvent r s) := by
  unfold execTapEvent
  repeat' (with_reducible first
    | assumption | apply State.deliverTap_kept | apply State.modRegion_kept | apply Kept.ite | apply Kept.foldl
    | apply OutKept.ite | apply OutKept.next)

theorem State.drainTap_kept {z s : State} (r : Region) (hz : Kept z s) : Kept z (State.drainTap s r) := by
  unfold State.drainTap
  repeat' (with_reducible first
    | assumption | apply State.deliverTap_kept | apply State.modRegion_kept | apply Kept.ite | apply Kept.foldl
    | (intro _ _ _) | (intro _ _) | extract_lets | split)

theorem State.dropPost_kept {z s : State} (r : Region) (t : Ctx) (code : BitVec 6) (addr : BitVec 18) (hz : Kept z s) : Kept z (State.dropPost s r t code addr) := by
  unfold State.dropPost
  repeat' (with_reducible first
    | assumption | apply State.raiseAsync_kept | apply State.modRegion_kept)

theorem State.sendPost_kept {z s : State} (r : Region) (t : Ctx) (tag : BitVec 6) (addr : BitVec 18) (w : BitVec 32) (hz : Kept z s) : Kept z (State.sendPost s r t tag addr w) := by
  unfold State.sendPost
  repeat' (with_reducible first
    | assumption | apply State.dropPost_kept | apply State.modRegion_kept | apply State.sendRequest_kept
    | apply Kept.ite | apply Kept.foldl | (intro _ _ _) | (intro _ _) | extract_lets | split)

theorem State.drainPost_kept {z s : State} (r : Region) (hz : Kept z s) : Kept z (State.drainPost s r) := by
  unfold State.drainPost
  repeat' (with_reducible first
    | assumption | apply State.modRegion_kept | apply State.sendPost_kept | apply Kept.ite | apply Kept.foldl
    | (intro _ _ _) | (intro _ _) | extract_lets | split)

theorem execPost_kept {z s : State} (r : Region) (hz : Kept z s) : OutKept z (execPost r s) := by
  unfold execPost
  repeat' (with_reducible first
    | assumption | apply State.drainPost_kept | apply State.modRegion_kept | apply Kept.ite | apply Kept.foldl
    | apply OutKept.ite | apply OutKept.next)

theorem execReconfigurationStart_kept {z s : State}  (hz : Kept z s) : OutKept z (execReconfigurationStart s) := by
  unfold execReconfigurationStart
  repeat' (with_reducible first
    | assumption | apply State.modRegion_kept | apply Kept.ite | apply Kept.foldl | apply OutKept.ite
    | apply OutKept.next | (intro _ _ _) | (intro _ _) | extract_lets | split | refine Kept.of_ok (by assumption) ?_
    | refine Kept.of_raise (by assumption) ?_ | refine Kept.of_stall (by assumption) ?_
    | refine Kept.of_some (by assumption) ?_ | refine Kept.of_done (by assumption) ?_
    | refine Kept.of_fst (by assumption) ?_ | refine Kept.of_snd (by assumption) ?_ | apply Kept.upd | rfl)

theorem State.imageError_kept {z s : State} (r : Region) (slot : BitVec 2) (hz : Kept z s) : Kept z (s.imageError r slot) := by
  unfold State.imageError
  extract_lets s1 owner s2
  have h2 : Kept z s2 := State.takeFault_kept _ _ _ _ _ (State.modRegion_kept _ _ hz)
  clear_value s2 owner
  cases owner with
  | none => exact h2
  | some t => exact State.signal_kept _ _ _ h2

theorem State.readSlot_kept {z s : State} (r : Region) (slot : BitVec 2) (ecc : List (Nat × Ecc)) (hz : Kept z s) : Kept z (State.readSlot s r slot ecc).2 := by
  unfold State.readSlot
  repeat' (with_reducible first
    | assumption | apply State.forward_kept | apply State.readsAt_kept)

theorem execReconfigurationComplete_kept {z s : State} (ecc : List (Nat × Ecc)) (hz : Kept z s) : OutKept z (execReconfigurationComplete ecc s) := by
  unfold execReconfigurationComplete
  repeat' (with_reducible first
    | assumption | apply State.imageError_kept | apply State.load_kept | apply State.modRegion_kept
    | apply State.readSlot_kept | apply Kept.ite | apply Kept.foldl | apply OutKept.ite | apply OutKept.next
    | exact OutKept.fault | exact OutKept.refused | (intro _ _ _) | (intro _ _) | extract_lets | split
    | refine Kept.of_some (by assumption) ?_ | refine Kept.of_fst (by assumption) ?_
    | refine Kept.of_snd (by assumption) ?_ | apply Kept.upd | rfl)

end Sys2Proof.Machine
end

