-- ==== Sys2Proof/Laws/Kept/Net.lean ====
section
/-! SUPPORT. What the operations of Machine/Net.lean keep (Laws/Kept.lean). -/

namespace Sys2Proof.Machine

theorem State.servePd_kept {z s : State} (p : Packet) (hz : Kept z s) : Kept z (State.servePd s p) := by
  unfold State.servePd
  repeat' (with_reducible first
    | assumption | apply State.answer_kept | apply State.cause_kept | apply State.performReg_kept
    | apply State.refusePacket_kept | apply State.regWrite_kept | apply State.syncRaise_kept | apply Kept.ite
    | apply Kept.foldl | (intro _ _ _) | (intro _ _) | extract_lets | split | refine Kept.of_some (by assumption) ?_
    | refine Kept.of_done (by assumption) ?_)

theorem State.landAny_kept {z s : State} (p : Packet) (hz : Kept z s) : Kept z (State.landAny s p) := by
  unfold State.landAny
  repeat' (with_reducible first
    | assumption | apply State.land_kept | apply State.refusePacket_kept | apply State.servePd_kept | apply Kept.ite)

theorem State.launchAny_kept {z s : State} (p : Packet) (hz : Kept z s) : Kept z (State.launchAny s p) := by
  unfold State.launchAny
  repeat' (with_reducible first
    | assumption | apply State.inject_kept | apply State.landAny_kept | apply Kept.ite | apply Kept.foldl
    | (intro _ _ _) | (intro _ _) | extract_lets | split | refine Kept.of_some (by assumption) ?_
    | refine Kept.of_fst (by assumption) ?_ | refine Kept.of_snd (by assumption) ?_)

theorem State.offerAny_kept {z s : State} (p : Packet) (hz : Kept z s) : Kept z (State.offerAny s p) := by
  unfold State.offerAny
  repeat' (with_reducible first
    | assumption | apply State.launchAny_kept | apply State.noteShort_kept | apply State.wait_kept | apply Kept.ite)

theorem State.request_kept {z s : State} (cmd : BitVec 5) (q : Req) (n : Nat) (units : List (BitVec 72)) (bad posted : Bool) (hz : Kept z s) : Kept z (State.request s cmd q n units bad posted) := by
  unfold State.request
  repeat' (with_reducible first
    | assumption | apply State.offerAny_kept | apply State.stage_kept | apply State.toRequester_kept | apply Kept.ite)

theorem execRd_kept {z s : State} (q : Req) (hz : Kept z s) : OutKept z (execRd q s) := by
  unfold execRd
  repeat' (with_reducible first
    | assumption | apply State.request_kept | apply Kept.ite | apply Kept.foldl | apply OutKept.ite
    | apply OutKept.next)

theorem execRdi_kept {z s : State} (q : Req) (hz : Kept z s) : OutKept z (execRdi q s) := by
  unfold execRdi
  repeat' (with_reducible first
    | assumption | apply State.request_kept | apply Kept.ite | apply Kept.foldl | apply OutKept.ite
    | apply OutKept.next)

theorem execWr_kept {z s : State} (q : Req) (units : List (BitVec 72)) (poison : Bool) (hz : Kept z s) : OutKept z (execWr q units poison s) := by
  unfold execWr
  repeat' (with_reducible first
    | assumption | apply State.request_kept | apply Kept.ite | apply Kept.foldl | apply OutKept.ite
    | apply OutKept.next)

theorem execWrp_kept {z s : State} (q : Req) (units : List (BitVec 72)) (poison : Bool) (hz : Kept z s) : OutKept z (execWrp q units poison s) := by
  unfold execWrp
  repeat' (with_reducible first
    | assumption | apply State.request_kept | apply Kept.ite | apply Kept.foldl | apply OutKept.ite
    | apply OutKept.next)

theorem execWrw_kept {z s : State} (q : Req) (word : Word) (poison : Bool) (hz : Kept z s) : OutKept z (execWrw q word poison s) := by
  unfold execWrw
  repeat' (with_reducible first
    | assumption | apply State.request_kept | apply Kept.ite | apply Kept.foldl | apply OutKept.ite
    | apply OutKept.next)

theorem execRegrd_kept {z s : State} (q : Req) (hz : Kept z s) : OutKept z (execRegrd q s) := by
  unfold execRegrd
  repeat' (with_reducible first
    | assumption | apply State.request_kept | apply Kept.ite | apply Kept.foldl | apply OutKept.ite
    | apply OutKept.next)

theorem execRegwr_kept {z s : State} (q : Req) (value : Word) (poison : Bool) (hz : Kept z s) : OutKept z (execRegwr q value poison s) := by
  unfold execRegwr
  repeat' (with_reducible first
    | assumption | apply State.request_kept | apply Kept.ite | apply Kept.foldl | apply OutKept.ite
    | apply OutKept.next)

theorem execBstr_kept {z s : State} (q : Req) (units : List (BitVec 72)) (hz : Kept z s) : OutKept z (execBstr q units s) := by
  unfold execBstr
  repeat' (with_reducible first
    | assumption | apply State.request_kept | apply Kept.ite | apply Kept.foldl | apply OutKept.ite
    | apply OutKept.next)

theorem State.respond_kept {z s : State} (x : Tag) (d : Damage) (r : Response) (use : List (BitVec 72 × Bool) → State → State) (huse : ∀ x0 s, Kept z s → Kept z (use x0 s)) (hz : Kept z s) : Kept z (State.respond s x d r use) := by
  unfold State.respond
  repeat' (with_reducible first
    | assumption | apply huse | apply State.arrived_kept | apply State.freeTag_kept | apply State.modNi_kept
    | apply State.modTag_kept | apply State.transit_kept | apply Kept.ite | apply Kept.foldl | (intro _ _ _)
    | (intro _ _) | extract_lets | split | refine Kept.of_some (by assumption) ?_
    | refine Kept.of_fst (by assumption) ?_ | refine Kept.of_snd (by assumption) ?_ | apply Kept.upd | rfl)

theorem execRdata_kept {z s : State} (n : NiId) (tag : BitVec 6) (d : Damage) (hz : Kept z s) : OutKept z (execRdata n tag d s) := by
  unfold execRdata
  repeat' (with_reducible first
    | assumption | apply State.respond_kept | apply State.toRequester_kept | apply Kept.ite | apply Kept.foldl
    | apply OutKept.ite | apply OutKept.next | exact OutKept.fault | exact OutKept.refused | (intro _ _ _)
    | (intro _ _) | extract_lets | split)

theorem execAck_kept {z s : State} (n : NiId) (tag : BitVec 6) (d : Damage) (hz : Kept z s) : OutKept z (execAck n tag d s) := by
  unfold execAck
  repeat' (with_reducible first
    | assumption | apply State.respond_kept | apply Kept.ite | apply Kept.foldl | apply OutKept.ite
    | apply OutKept.next | exact OutKept.fault | exact OutKept.refused | (intro _ _ _) | (intro _ _) | extract_lets
    | split)

theorem execErr_kept {z s : State} (n : NiId) (tag : BitVec 6) (d : Damage) (hz : Kept z s) : OutKept z (execErr n tag d s) := by
  unfold execErr
  repeat' (with_reducible first
    | assumption | apply State.respond_kept | apply State.toRequester_kept | apply Kept.ite | apply Kept.foldl
    | apply OutKept.ite | apply OutKept.next | exact OutKept.fault | exact OutKept.refused | (intro _ _ _)
    | (intro _ _) | extract_lets | split)

theorem execSnpinv_kept {z s : State} (n : NiId) (block : BitVec 11) (hz : Kept z s) : OutKept z (execSnpinv n block s) := by
  unfold execSnpinv
  repeat' (with_reducible first
    | assumption | apply State.modUnit_kept | apply Kept.ite | apply Kept.foldl | apply OutKept.ite
    | apply OutKept.next | (intro _ _ _) | (intro _ _) | extract_lets | split | apply Kept.upd | rfl)

theorem State.releaseAck_kept {z s : State} (n : NiId) (f : AckFor) (hz : Kept z s) : Kept z (State.releaseAck s n f) := by
  unfold State.releaseAck
  repeat' (with_reducible first
    | assumption | apply State.answer_kept | apply State.store_kept | apply State.modRegion_kept | apply Kept.ite)

theorem State.releaseBlock_kept {z s : State} (block : Nat) (hz : Kept z s) : Kept z (State.releaseBlock s block) := by
  unfold State.releaseBlock
  repeat' (with_reducible first
    | assumption | apply State.releaseAck_kept | apply Kept.ite | apply Kept.foldl | (intro _ _ _) | (intro _ _)
    | extract_lets | split | apply Kept.upd | rfl)

theorem execSnpack_kept {z s : State} (n : NiId) (block : BitVec 11) (hz : Kept z s) : OutKept z (execSnpack n block s) := by
  unfold execSnpack
  repeat' (with_reducible first
    | assumption | apply State.releaseBlock_kept | apply Kept.ite | apply Kept.foldl | apply OutKept.ite
    | apply OutKept.next | (intro _ _ _) | (intro _ _) | extract_lets | split | apply Kept.upd | rfl)

theorem State.endZero_kept {z s : State} (x : Tag) (hz : Kept z s) : Kept z (State.endZero s x) := by
  unfold State.endZero
  repeat' (with_reducible first
    | assumption | apply State.outDown_kept | apply State.stage_kept | apply State.unwait_kept | apply Kept.ite
    | apply Kept.foldl | (intro _ _ _))

theorem State.timedOut_kept {z s : State} (x : Tag) (hz : Kept z s) : Kept z (State.timedOut s x) := by
  unfold State.timedOut
  repeat' (with_reducible first
    | assumption | apply State.countFault_kept | apply State.modRegion_kept | apply State.modUnit_kept
    | apply State.toRequester_kept | apply Kept.ite | apply Kept.foldl | (intro _ _ _) | (intro _ _) | extract_lets
    | split)

theorem execNiTimeout_kept {z s : State} (n : NiId) (tag : BitVec 6) (near : Bool) (hz : Kept z s) : OutKept z (execNiTimeout n tag near s) := by
  unfold execNiTimeout
  repeat' (with_reducible first
    | assumption | apply State.endZero_kept | apply State.modNi_kept | apply State.retire_kept
    | apply State.timedOut_kept | apply Kept.ite | apply Kept.foldl | apply OutKept.ite | apply OutKept.next
    | exact OutKept.fault | exact OutKept.refused | (intro _ _ _) | (intro _ _) | extract_lets | split)

theorem execTagRelease_kept {z s : State} (n : NiId) (tag : BitVec 6) (hz : Kept z s) : OutKept z (execTagRelease n tag s) := by
  unfold execTagRelease
  repeat' (with_reducible first
    | assumption | apply State.freeTag_kept | apply Kept.ite | apply Kept.foldl | apply OutKept.ite
    | apply OutKept.next | (intro _ _ _) | (intro _ _) | extract_lets | split)

theorem execFlushComplete_kept {z s : State} (n : NiId) (hz : Kept z s) : OutKept z (execFlushComplete n s) := by
  unfold execFlushComplete
  repeat' (with_reducible first
    | assumption | apply State.modNi_kept | apply Kept.ite | apply Kept.foldl | apply OutKept.ite
    | apply OutKept.next | (intro _ _ _) | (intro _ _) | extract_lets | split | apply Kept.upd | rfl)

theorem State.releaseNi_kept {z s : State} (n : NiId) (hz : Kept z s) : Kept z (State.releaseNi s n) := by
  unfold State.releaseNi
  repeat' (with_reducible first
    | assumption | apply State.launchAny_kept | apply State.unwait_kept | apply Kept.ite | apply Kept.foldl
    | (intro _ _ _))

theorem State.enter_kept {z s : State} (p : Packet) (hz : Kept z s) : Kept z (State.enter s p) := by
  unfold State.enter
  repeat' (with_reducible first
    | assumption | apply State.modRouter_kept | apply State.stage_kept | apply State.touchBank_kept
    | apply State.unwait_kept | apply Kept.ite | apply Kept.foldl | (intro _ _ _) | (intro _ _) | extract_lets
    | split | refine Kept.of_fst (by assumption) ?_ | refine Kept.of_snd (by assumption) ?_ | apply Kept.upd | rfl)

theorem State.admitOne_kept {z s : State} (e : NiId) (hz : Kept z s) : Kept z (State.admitOne s e) := by
  unfold State.admitOne
  repeat' (with_reducible first
    | assumption | apply State.enter_kept | apply Kept.ite | apply Kept.foldl | (intro _ _ _) | (intro _ _)
    | extract_lets | split)

theorem State.admitUpTo_kept {z s : State} (e : NiId) (a0 : Nat) (hz : Kept z s) : Kept z (State.admitUpTo s e a0) := by
  induction a0 generalizing s  with
  | zero =>
    unfold State.admitUpTo
    repeat' (with_reducible first
      | assumption)
  | succ k ih =>
    unfold State.admitUpTo
    repeat' (with_reducible first
      | assumption | apply ih | apply State.admitOne_kept)

theorem State.servePort_kept {z s : State} (b : BankId) (portB : Bool) (c : Nat) (hz : Kept z s) : Kept z (State.servePort s b portB c) := by
  unfold State.servePort
  repeat' (with_reducible first
    | assumption | apply State.outDown_kept | apply State.perform_kept | apply State.refusePacket_kept
    | apply State.unwait_kept | apply Kept.ite | apply Kept.foldl | (intro _ _ _) | (intro _ _) | extract_lets
    | split)

theorem State.serveCycle_kept {z s : State} (c : Nat) (hz : Kept z s) : Kept z (State.serveCycle s c) := by
  unfold State.serveCycle
  repeat' (with_reducible first
    | assumption | apply State.servePort_kept | apply Kept.ite | apply Kept.foldl | (intro _ _ _))

theorem State.watchShares_kept {z s : State} (hz : Kept z s) : Kept z (State.watchShares s) := by
  unfold State.watchShares
  repeat' (with_reducible first
    | assumption | apply Kept.ite | apply Kept.foldl | (intro _ _ _) | (intro _ _) | extract_lets | split
    | refine Kept.of_some (by assumption) ?_ | apply Kept.upd | rfl)

theorem State.countHeld_kept {z s : State} (hz : Kept z s) : Kept z (State.countHeld s) := by
  unfold State.countHeld
  repeat' (with_reducible first
    | assumption | apply Kept.ite | apply Kept.foldl | (intro _ _ _) | (intro _ _) | extract_lets | split
    | apply Kept.upd | rfl)

theorem State.endPosted_kept {z s : State} (hz : Kept z s) : Kept z (State.endPosted s) := by
  unfold State.endPosted
  repeat' (with_reducible first
    | assumption | apply State.outDown_kept | apply State.stage_kept | apply State.unwait_kept | apply Kept.ite
    | apply Kept.foldl | (intro _ _ _))

theorem State.drainDiscard_kept {z s : State} (hz : Kept z s) : Kept z (State.drainDiscard s) := by
  unfold State.drainDiscard
  repeat' (with_reducible first
    | assumption | apply Kept.ite | apply Kept.foldl | (intro _ _ _) | (intro _ _) | extract_lets | split
    | apply Kept.upd | rfl)

theorem State.movePackets_kept {z s : State} (hz : Kept z s) : Kept z (State.movePackets s) := by
  unfold State.movePackets
  repeat' (with_reducible first
    | assumption | apply State.admitUpTo_kept | apply State.countHeld_kept | apply State.endPosted_kept
    | apply State.releaseNi_kept | apply State.serveCycle_kept | apply Kept.ite | apply Kept.foldl | (intro _ _ _))

theorem State.followPark_kept {z s : State} (hz : Kept z s) : Kept z (State.followPark s) := by
  unfold State.followPark
  repeat' (with_reducible first
    | assumption | apply State.retainGroup_kept | apply Kept.ite | apply Kept.foldl)

theorem State.pump_kept {z s : State} (hz : Kept z s) : Kept z (State.pump s) := by
  unfold State.pump
  repeat' (with_reducible first
    | assumption | apply State.drainDiscard_kept | apply State.followPark_kept | apply State.movePackets_kept
    | apply State.watchShares_kept | apply Kept.ite)

end Sys2Proof.Machine
end

