-- ==== Sys2Proof/Laws/Kept/Pool.lean ====
section
/-! SUPPORT. What the operations of Machine/Pool.lean keep (Laws/Kept.lean). -/

namespace Sys2Proof.Machine

theorem State.scrub_kept {z s : State} (b : BankId) (c : Nat) (e : Ecc) (hz : Kept z s) : Kept z (State.scrub s b c e) := by
  unfold State.scrub
  repeat' (with_reducible first
    | assumption | apply State.countRead_kept | apply State.holdPort_kept | apply State.meetEcc_kept
    | apply State.modBank_kept | apply State.touch_kept | apply State.uncError_kept | apply Kept.ite)

theorem execScrubRead_kept {z s : State} (k : BankId) (ecc : Ecc) (hz : Kept z s) : OutKept z (execScrubRead k ecc s) := by
  unfold execScrubRead
  repeat' (with_reducible first
    | assumption | apply State.scrub_kept | apply Kept.ite | apply Kept.foldl | apply OutKept.ite
    | apply OutKept.next)

theorem execForcedScrub_kept {z s : State} (k : BankId) (ecc : Ecc) (hz : Kept z s) : OutKept z (execForcedScrub k ecc s) := by
  unfold execForcedScrub
  repeat' (with_reducible first
    | assumption | apply State.loseCycles_kept | apply State.modBank_kept | apply State.scrub_kept | apply Kept.ite
    | apply Kept.foldl | apply OutKept.ite | apply OutKept.next)

end Sys2Proof.Machine
end

