-- ==== Sys2Proof/Laws/Kept/Weir.lean ====
section
/-! SUPPORT. What the operations of Machine/Weir.lean keep (Laws/Kept.lean). -/

namespace Sys2Proof.Machine

theorem State.declareShort_kept {z s : State} (g : Group) (hz : Kept z s) : Kept z (State.declareShort s g) := by
  unfold State.declareShort
  repeat' (with_reducible first
    | assumption | apply State.underShort_kept | apply Kept.ite | apply Kept.foldl | (intro _ _ _) | (intro _ _)
    | extract_lets | split | apply Kept.upd | rfl)

theorem State.nextWindow_kept {z s : State} (hz : Kept z s) : Kept z (State.nextWindow s) := by
  unfold State.nextWindow
  repeat' (with_reducible first
    | assumption | apply Kept.ite | apply Kept.foldl | (intro _ _ _) | (intro _ _) | extract_lets | split
    | refine Kept.of_fst (by assumption) ?_ | refine Kept.of_snd (by assumption) ?_ | apply Kept.upd | rfl)

theorem execWeirWindow_kept {z s : State} (hz : Kept z s) : OutKept z (execWeirWindow s) := by
  unfold execWeirWindow
  repeat' (with_reducible first
    | assumption | apply State.declareShort_kept | apply State.nextWindow_kept | apply Kept.ite | apply Kept.foldl
    | apply OutKept.ite | apply OutKept.next)

theorem execShortfallDeclaration_kept {z s : State} (g : Group) (cls : BitVec 4) (hz : Kept z s) :
    OutKept z (execShortfallDeclaration g cls s) := by
  unfold execShortfallDeclaration
  repeat' (with_reducible first
    | assumption | apply State.declareShort_kept | apply Kept.ite | apply Kept.foldl | apply OutKept.ite
    | apply OutKept.next)

end Sys2Proof.Machine
end

