-- ==== Sys2Proof/Laws/Kept/Tick.lean ====
section
/-! SUPPORT. What the operations of Machine/Tick.lean keep (Laws/Kept.lean). -/

namespace Sys2Proof.Machine

theorem State.tickTime_kept {z s : State} (hz : Kept z s) : Kept z (State.tickTime s) := by
  unfold State.tickTime
  repeat' (with_reducible first
    | assumption | apply State.takeStep_kept | apply Kept.ite | apply Kept.foldl | (intro _ _ _) | (intro _ _)
    | extract_lets | split | apply Kept.upd | rfl)

theorem State.feedZero_kept {z s : State} (k : Strip) (hz : Kept z s) : Kept z (State.feedZero s k) := by
  unfold State.feedZero
  repeat' (with_reducible first
    | assumption | apply State.pushBit_kept | apply Kept.ite)

theorem State.tickBorder_kept {z s : State}  (hz : Kept z s) : Kept z (State.tickBorder s) := by
  unfold State.tickBorder
  repeat' (with_reducible first
    | assumption | apply State.feedZero_kept | apply State.drainPost_kept | apply State.drainTap_kept
    | apply Kept.ite | apply Kept.foldl | (intro _ _ _))

theorem State.tickDie_kept {z s : State} (edge : Bool) (hz : Kept z s) : Kept z (State.tickDie s edge) := by
  unfold State.tickDie
  repeat' (with_reducible first
    | assumption | apply State.tickBorder_kept | apply State.goOnOp_kept | apply State.drainOne_kept
    | apply Kept.ite | apply Kept.foldl)

theorem State.meetUpset_kept {z s : State} (u : Upset) (hz : Kept z s) : Kept z (State.meetUpset s u) := by
  unfold State.meetUpset
  repeat' (with_reducible first
    | assumption | apply State.countFault_kept | apply State.modUnit_kept | apply State.takeFault_kept | apply Kept.ite | split)

theorem State.meetUpsets_kept {z s : State} (hz : Kept z s) : Kept z (State.meetUpsets s) := by
  unfold State.meetUpsets
  repeat' (with_reducible first
    | assumption | apply State.meetUpset_kept | apply Kept.foldl | (intro _ _ _) | extract_lets | apply Kept.upd | rfl)

theorem State.tick_kept {z s : State} (hz : Kept z s) : Kept z (State.tick s) := by
  unfold State.tick
  repeat' (with_reducible first
    | assumption | apply State.goOnOp_kept | apply State.pump_kept | apply State.meetUpsets_kept | apply State.tickDie_kept
    | apply State.tickTime_kept | apply State.transmit_kept | apply Kept.ite | apply Kept.foldl)

end Sys2Proof.Machine
end

