-- ==== Sys2Proof/Tests/Slice0.lean ====
section
/-! SUPPORT. Tests on small states: what each check of well-formedness refuses, one step of commands of every family, and for
each statement of the certificate a state that meets its hypotheses. -/

namespace Sys2Proof.Tests

open Sys2Proof.Machine

set_option Elab.async false

/-! ### Small states -/

/-- A window of tenant banks 10h and 11h onto the Pool's first two blocks. -/
def window : Window := { base := 0x10, len := 2, valid := true, writable := true, eddy := false, shared := false, phys := 0 }

/-- The node runs; context 0 runs on unit 0 at word address 8000h, with the line of its code in the instruction cache. -/
def base : State :=
  let s := State.reset
  { s with
    power := { s.power with powered := true, vs := .good, phase := .run }
    ctxs := s.ctxs.set 0 { s.ctxs[0] with state := .running, pc := 0x10000, bellv := 0x10008, wins := s.ctxs[0].wins.set 0 window }
    units := s.units.set 0 { s.units[0] with ctx := some 0, icache := [0] } }

/-- `base` with context 0's registers changed. -/
def withArch (f : Arch → Arch) : State := base.modArch 0 f

/-- `base` with a data stack, top first. -/
def withStack (ds : List Word) : State := withArch (fun a => { a with ds := ds })

theorem fetch_hit {s : State} {t : Ctx} {p : Phys} (h : 0x10 ≤ ((s.ctx t).pc.extractLsb' 1 18).toNat / 2048)
    (ht : s.translate t ((s.ctx t).pc.extractLsb' 1 18) false = some p)
    (hc : (s.hunit (s.ctx t).unit).icache.contains p.line = true) : s.fetch t (s.ctx t).pc = .ok s () := by
  unfold State.fetch
  simp only [ht, hc]
  rw [if_neg (by omega)]
  simp

/-- What makes context 0 of `s` issue with its code's line cached. -/
def issuesNow (s : State) : Bool :=
  s.canIssue 0 && decide (0x10 ≤ ((s.ctx 0).pc.extractLsb' 1 18).toNat / 2048)
  && (match s.translate 0 ((s.ctx 0).pc.extractLsb' 1 18) false with
      | some p => (s.hunit (s.ctx 0).unit).icache.contains p.line
      | none => false)

theorem issues_of {s : State} (h : issuesNow s = true) : Issues s 0 s := by
  simp only [issuesNow, Bool.and_eq_true, decide_eq_true_eq] at h
  obtain ⟨⟨a, b⟩, c⟩ := h
  split at c
  · exact ⟨a, fetch_hit b ‹_› c⟩
  · cases c

/-! ### Witnesses: the queue, the step and the short ops -/

theorem witness_StepRunsTheFrontCommand :
    ({ State.reset with pending := [.runTokenLapse, .ledgerReplay] } : State).pending = .runTokenLapse :: [.ledgerReplay] := rfl

theorem witness_EmptyQueueTicks : State.reset.pending = [] ∧ State.reset.power.powered = false := ⟨rfl, rfl⟩

theorem witness_StepKeepsMemoriesCanonical : State.reset.memOk = true ∧ step State.reset = .next State.reset.tick := ⟨rfl, rfl⟩

theorem witness_StepKeepsTheFuses : step State.reset = .next State.reset.tick := rfl

/-- ADD beside NOP with the deepest stack, and DROP beside INC with the least. -/
theorem witness_StackAndWordOps :
    (∃ cmd code act s s3, WordRow cmd code act ∧ Issues s 0 s ∧ PairOk s 0 code 0
      ∧ shortOp (0 : BitVec 8).toNat (s.modArch 0 (fun a => { a with ds := act a.ds })) 0 = .ok s3 ())
    ∧ ∃ cmd code act s s3, StackRow cmd code act ∧ Issues s 0 s ∧ PairOk s 0 code 0x13
      ∧ shortOp (0x13 : BitVec 8).toNat (s.modArch 0 (fun a => { a with ds := act a.ds })) 0 = .ok s3 () :=
  ⟨⟨_, _, _, withStack (List.replicate 16 1), _, .add, issues_of (by decide +kernel), by unfold PairOk; decide +kernel, rfl⟩,
   ⟨_, _, _, withStack [1, 2], _, .drop, issues_of (by decide +kernel), by unfold PairOk; decide +kernel, rfl⟩⟩

theorem witness_ShiftsAndBitReversal : ∃ cmd code act s s3, ShiftRow cmd code act ∧ Issues s 0 s ∧ PairOk s 0 code 0
    ∧ shortOp (0 : BitVec 8).toNat (s.modArch 0 (fun a => { a with ds := act a.ds })) 0 = .ok s3 () :=
  ⟨_, _, _, withStack [36, 1], _, .rol, issues_of (by decide +kernel), by unfold PairOk; decide +kernel, rfl⟩

theorem witness_RiffleRegisterOps : (∃ cmd code act s s3, RegRow cmd code act ∧ Issues s 0 s ∧ PairOk s 0 code 0
      ∧ shortOp (0 : BitVec 8).toNat (s.modArch 0 act) 0 = .ok s3 ())
    ∧ ∃ cmd code act s s3, RiffleRow cmd code act ∧ Issues s 0 s ∧ PairOk s 0 code 0
      ∧ shortOp (0 : BitVec 8).toNat (s.modArch 0 act) 0 = .ok s3 () :=
  ⟨⟨_, _, _, withArch (fun a => { a with ds := [7], rs := List.replicate 11 3 }), _, .tor, issues_of (by decide +kernel),
      by unfold PairOk; decide +kernel, rfl⟩,
   ⟨_, _, _, withStack (List.replicate 15 1), _, .rdre, issues_of (by decide +kernel), by unfold PairOk; decide +kernel, rfl⟩⟩

/-- The pair runs; 2^39 - 1 fits 40 bits and 2^39 does not; a pointer at the end of its circle, and one outside it. -/
theorem witness_MultiplyAccumulate :
    (∃ s s3, Issues s 0 s ∧ PairOk s 0 0x50 0 ∧ PairOk s 0 0x51 0 ∧ shortOp (0 : BitVec 8).toNat s 0 = .ok s3 ())
    ∧ fits 40 (2 ^ 39 - 1) ∧ ¬ fits 40 (2 ^ 39)
    ∧ (let st : BitVec 33 := 8#11 ++ 4#11 ++ 1#11
       ((st.extractLsb' 22 11).toNat ≤ (11#11).toNat ∧ (11#11).toNat ≤ 8 + 4 - 1) ∧ ¬ (12#11).toNat ≤ 8 + 4 - 1) :=
  ⟨⟨base, base, issues_of (by decide +kernel), by unfold PairOk; decide +kernel, by unfold PairOk; decide +kernel, rfl⟩,
   by unfold fits; omega, by unfold fits; omega, by decide⟩

/-- A load and a store of X RAM, an element of each string op, one at CNT = 0, and a CRC width. -/
theorem witness_MemoryShortOps :
    (∃ s s2 v, Issues s 0 s ∧ PairOk s 0 0x40 0 ∧ PairOk s 0 0x42 0 ∧ PairOk s 0 0x41 0 ∧ PairOk s 0 0x43 0
      ∧ s.load 0 (((s.ctx 0).arch.ds.getD 0 0).extractLsb' 0 18) = .ok s v
      ∧ s.store 0 (((s.ctx 0).arch.ds.getD 0 0).extractLsb' 0 18) ((s.ctx 0).arch.ds.getD 1 0) = .ok s2 ())
    ∧ (∃ s s2 m, Issues s 0 s ∧ (s.ctx 0).arch.cnt ≠ 0 ∧ s.load 0 (s.ctx 0).arch.src = .ok s m
      ∧ s.store 0 (s.ctx 0).arch.dst m = .ok s2 ()
      ∧ PairOk s 0 0x44 0 ∧ PairOk s 0 0x45 0 ∧ PairOk s 0 0x46 0 ∧ PairOk s 0 0x47 0)
    ∧ (∃ s, Issues s 0 s ∧ (s.ctx 0).arch.cnt = 0 ∧ PairOk s 0 0x44 0 ∧ PairOk s 0 0x47 0)
    ∧ ∃ s x c r, Issues s 0 s ∧ PairOk s 0 0x38 0 ∧ (s.ctx 0).arch.ds = x :: c :: r :=
  ⟨⟨withStack [0x7ff, 5], _, _, issues_of (by decide +kernel), by unfold PairOk; decide +kernel, by unfold PairOk; decide +kernel,
      by unfold PairOk; decide +kernel, by unfold PairOk; decide +kernel, rfl, rfl⟩,
   ⟨withArch (fun a => { a with cnt := 1, src := 0x7ff, dst := 0xfff, crcw := 8, ds := [0] }), _, _, issues_of (by decide +kernel), by decide +kernel,
      rfl, rfl, by unfold PairOk; decide +kernel, by unfold PairOk; decide +kernel, by unfold PairOk; decide +kernel,
      by unfold PairOk; decide +kernel⟩,
   ⟨withStack [0], issues_of (by decide +kernel), by decide +kernel, by unfold PairOk; decide +kernel, by unfold PairOk; decide +kernel⟩,
   ⟨withArch (fun a => { a with crcw := 32, ds := [0xff, 0] }), _, _, _, issues_of (by decide +kernel), by unfold PairOk; decide +kernel, rfl⟩⟩

/-- An unlisted code in slot B; each dependence; and each cause of the stacks at its boundary. -/
theorem witness_CausesOfShortPairs :
    Issues base 0 base ∧ unlistedCode 0xff = true ∧ unlistedCode 0x0d = true ∧ usesCrc 0x00 = false
    ∧ (∃ ia ib, shortInfo 0x01 = some ia ∧ shortInfo 0x13 = some ib ∧ 0 < ia.leaves ∧ 0 < ib.takes)
    ∧ (∃ r ∈ shortWrites 0x48, r ∈ shortWrites 0x48 ∨ r ∈ shortReads 0x48)
    ∧ (∃ ia ib, shortInfo 0x41 = some ia ∧ shortInfo 0x44 = some ib ∧ ia.mem = true ∧ ib.mem = true)
    ∧ (∃ ia ib, shortInfo 0x0c = some ia ∧ shortInfo 0x0c = some ib ∧ ia.ret = true ∧ ib.ret = true)
    ∧ (∃ i, shortInfo 0x08 = some i ∧ i.takes ≤ [1, 7].length ∧ ¬ ((1 : Word).toNat < [1, 7].length - 1))
    ∧ (∃ i, shortInfo 0x01 = some i ∧ i.takes ≤ 16 ∧ ¬ (16 - i.takes + i.leaves ≤ 16))
    ∧ (base.ctx 0).arch.rs = [] ∧ (base.ctx 0).arch.rswrap = false
    ∧ 12 ≤ ((withArch (fun a => { a with ds := [0], rs := List.replicate 12 0 })).ctx 0).arch.rs.length :=
  ⟨issues_of (by decide +kernel), rfl, rfl, rfl, ⟨_, _, rfl, rfl, by decide, by decide⟩, by decide, ⟨_, _, rfl, rfl, rfl, rfl⟩,
    ⟨_, _, rfl, rfl, rfl, rfl⟩, ⟨_, rfl, by decide, by decide⟩, ⟨_, rfl, by decide, by decide⟩, rfl, rfl, by decide⟩

/-! ### Witnesses: long ops, registers and the Bell -/

/-- A context at the end of its loop, one in a delay slot, and one that has a strand op waiting. -/
def atLoop : State := withArch (fun a => { a with levels := 1, lc := #v[2, 0, 0], ls := #v[0x10000, 0, 0], le := #v[0x10000, 0, 0] })
def inSlot : State := base.modCtx 0 (fun c => { c with branch := some { addr := 0xffff, target := 0x10004, taken := true, undo := c.arch } })
def opWaits (ds : List Word) : State :=
  (withStack ds).modCtx 0 (fun c => { c with queued := some { entry := 1, slots := Vector.replicate 8 0, spec := false, parity := none } })

theorem open_of {s : State} (h : (s.ctx 0).branch.isNone = true) (h' : (s.ctx 0).atLoopEnd = false) : OpenPlace s 0 :=
  ⟨Option.isNone_iff_eq_none.1 h, h'⟩

theorem witness_LiteralsAndBank :
    (Issues (withStack (List.replicate 15 0)) 0 (withStack (List.replicate 15 0)) ∧ (List.replicate 15 (0 : Word)).length < 16
      ∧ ((withStack (List.replicate 15 0)).ctx 0).arch.ds = 0 :: List.replicate 14 0)
    ∧ Issues (withStack (List.replicate 16 0)) 0 (withStack (List.replicate 16 0)) ∧ (base.ctx 0).arch.ds = []
    ∧ (0x07f#11).extractLsb' 7 4 = 0 ∧ (0x080#11).extractLsb' 7 4 ≠ 0 :=
  ⟨⟨issues_of (by decide +kernel), by decide, rfl⟩, issues_of (by decide +kernel), rfl, by decide, by decide⟩

/-- A window access that misses the cache of stores, the last word of Y RAM, the first reserved bank and the first unmapped one. -/
theorem witness_LoadsAndStores :
    base.translate 0 0x8fff false = some { eddy := false, word := 0xfff } ∧ base.translate 0 0x9000 false = none
    ∧ base.translate 0 0x8fff true ≠ none ∧ (0x0fff#18).toNat / 2048 = 1 ∧ (0x1000#18).toNat / 2048 = 2
    ∧ (base.ctx 0).spec = none ∧ (base.hunit 0).buffer.length < 8
    ∧ (∃ s2 v, Issues base 0 base ∧ base.load 0 (1#7 ++ 0x7ff#11) = .ok s2 v ∧ (s2.ctx 0).arch.ds.length < 16)
    ∧ (∃ s2, base.store 0 (0#7 ++ 0x7ff#11) 5 = .ok s2 ())
    ∧ ¬ ((base.modUnit 0 (fun u => { u with buffer := List.replicate 8 { ctx := 0, addr := 0x8000, val := 1, spec := false, qc := 1 } })).hunit 0).buffer.length < 8 :=
  ⟨by decide +kernel, by decide +kernel, by decide +kernel, by decide, by decide, rfl, by decide,
    ⟨base, _, issues_of (by decide +kernel), rfl, by decide +kernel⟩, ⟨_, rfl⟩, by decide +kernel⟩

theorem witness_BranchesAndPlaces :
    (∃ s x r, Issues s 0 s ∧ OpenPlace s 0 ∧ (s.ctx 0).arch.ds = x :: r ∧ (s.ctx 0).arch.rs = x :: r ∧ (s.ctx 0).arch.rs.length < 12)
    ∧ (Issues inSlot 0 inSlot ∧ (inSlot.ctx 0).branch.isSome = true)
    ∧ Issues atLoop 0 atLoop ∧ (atLoop.ctx 0).branch.isNone = true ∧ (atLoop.ctx 0).atLoopEnd = true :=
  ⟨⟨withArch (fun a => { a with ds := List.replicate 11 0, rs := List.replicate 11 0 }), _, _, issues_of (by decide +kernel),
      open_of (by decide +kernel) (by decide +kernel), rfl, rfl, by decide +kernel⟩,
   ⟨issues_of (by decide +kernel), by decide +kernel⟩, issues_of (by decide +kernel), by decide +kernel, by decide +kernel⟩

theorem witness_BrcFollowsOrSpeculates :
    (Issues base 0 base ∧ OpenPlace base 0 ∧ (base.ctx 0).spec = none ∧ (base.ctx 0).strandsDone = true)
    ∧ Issues (opWaits []) 0 (opWaits []) ∧ OpenPlace (opWaits []) 0 ∧ ((opWaits []).ctx 0).spec = none
      ∧ ((opWaits []).ctx 0).strandsDone = false :=
  ⟨⟨issues_of (by decide +kernel), open_of (by decide +kernel) (by decide +kernel), rfl, by decide +kernel⟩,
   issues_of (by decide +kernel), open_of (by decide +kernel) (by decide +kernel), rfl, by decide +kernel⟩

theorem witness_Loops :
    (∃ s x r, Issues s 0 s ∧ OpenPlace s 0 ∧ (s.ctx 0).arch.ds = x :: r ∧ x = 0 ∧ (s.ctx 0).arch.levels = 2)
    ∧ (∃ s x r, Issues s 0 s ∧ OpenPlace s 0 ∧ (s.ctx 0).arch.ds = x :: r ∧ x ≠ 0 ∧ (s.ctx 0).arch.levels = 2)
    ∧ (∃ s x r, Issues s 0 s ∧ OpenPlace s 0 ∧ (s.ctx 0).arch.ds = x :: r ∧ (s.ctx 0).arch.levels = 3)
    ∧ (base.ctx 0).arch.levels = 0
    ∧ (∃ b, (inSlot.ctx 0).branch = some b ∧ b.taken = true)
    ∧ ((atLoop.ctx 0).branch.isNone = true ∧ (atLoop.ctx 0).atLoopEnd = true ∧ (atLoop.ctx 0).arch.lc[(atLoop.ctx 0).arch.level] ≠ 1)
    ∧ (let c := (atLoop.modArch 0 (fun a => { a with lc := #v[1, 0, 0] })).ctx 0
       c.branch.isNone = true ∧ c.atLoopEnd = true ∧ c.arch.levels = 1 ∧ c.arch.lc[c.arch.level] = 1) :=
  ⟨⟨withArch (fun a => { a with ds := [0], levels := 2 }), _, _, issues_of (by decide +kernel), open_of (by decide +kernel) (by decide +kernel),
      rfl, rfl, rfl⟩,
   ⟨withArch (fun a => { a with ds := [1], levels := 2 }), _, _, issues_of (by decide +kernel), open_of (by decide +kernel) (by decide +kernel),
      rfl, by decide, rfl⟩,
   ⟨withArch (fun a => { a with ds := [1], levels := 3 }), _, _, issues_of (by decide +kernel), open_of (by decide +kernel) (by decide +kernel),
      rfl, rfl⟩,
   rfl, ⟨_, rfl, rfl⟩, ⟨by decide +kernel, by decide +kernel, by decide +kernel⟩, by decide +kernel⟩

theorem witness_RepsFinalStep :
    (∃ s, Issues s 0 s ∧ OpenPlace s 0 ∧ (s.ctx 0).spec = none ∧ (s.ctx 0).arch.cnt = 0 ∧ (s.ctx 0).arch.crcOk = true ∧ (s.ctx 0).arch.ds ≠ [])
    ∧ ∃ s s3 m, Issues s 0 s ∧ OpenPlace s 0 ∧ (s.ctx 0).spec = none ∧ (s.ctx 0).arch.cnt = 1 ∧ s.load 0 (s.ctx 0).arch.src = .ok s m
      ∧ s.store 0 (s.ctx 0).arch.dst m = .ok s3 () ∧ (s.ctx 0).arch.crcOk = true ∧ (s.ctx 0).arch.ds ≠ []
      ∧ decide ((m ^^^ (s.ctx 0).arch.ds.getD 0 0) &&& (s.ctx 0).arch.scmask = 0) = true :=
  ⟨⟨withArch (fun a => { a with crcw := 32, ds := [0] }), issues_of (by decide +kernel), open_of (by decide +kernel) (by decide +kernel), rfl,
      by decide +kernel, by decide +kernel, by decide +kernel⟩,
   ⟨withArch (fun a => { a with crcw := 32, ds := [0], cnt := 1, dst := 0x7ff }), _, _, issues_of (by decide +kernel),
      open_of (by decide +kernel) (by decide +kernel), rfl, by decide +kernel, rfl, rfl, by decide +kernel, by decide +kernel, by decide +kernel⟩⟩

theorem witness_SystemOps :
    (Issues base 0 base ∧ OpenPlace base 0 ∧ (base.ctx 0).spec = none ∧ (base.ctx 0).strandsDone = true ∧ (base.ctx 0).shadow = none
      ∧ (base.ctx 0).inBell = false ∧ ((base.drainUnit 0).hunit 0).buffer = [] ∧ (base.drainUnit 0).unacked 0 = false
      ∧ ((base.drainUnit 0).ctx 0).pc = (base.ctx 0).pc)
    ∧ (Issues (opWaits []) 0 (opWaits []) ∧ ((opWaits []).ctx 0).strandsDone = false ∧ ((opWaits []).ctx 0).arch.ds.length < 16)
    ∧ (let s := base.modCtx 0 (fun c => { c with inBell := true })
       Issues s 0 s ∧ OpenPlace s 0 ∧ (s.ctx 0).inBell = true)
    ∧ (let s := withStack [0]
       Issues s 0 s ∧ (s.ctx 0).levels &&& 2 ≠ 0 ∧ (0x002#11) &&& 0x480 = 0
         ∧ s.waitDue { mask := 4, tt := false, deadline := some (.inr 0) } = true ∧ (s.ctx 0).levels &&& 4 = 0
         ∧ s.waitDue { mask := 4, tt := false, deadline := none } = false) :=
  ⟨⟨issues_of (by decide +kernel), open_of (by decide +kernel) (by decide +kernel), rfl, by decide +kernel, rfl, rfl, by decide +kernel,
      by decide +kernel, by decide +kernel⟩,
   ⟨issues_of (by decide +kernel), by decide +kernel, by decide +kernel⟩,
   ⟨issues_of (by decide +kernel), open_of (by decide +kernel) (by decide +kernel), by decide +kernel⟩,
   ⟨issues_of (by decide +kernel), by decide +kernel, by decide, by decide +kernel, by decide +kernel, by decide +kernel⟩⟩

/-- The index of the last register, one beyond the map, one of another context, and a named write, read and own write. -/
theorem witness_RegisterAccess :
    (∃ s i v r a, Issues s 0 s ∧ OpenPlace s 0 ∧ (s.ctx 0).spec = none ∧ (s.ctx 0).arch.ds = i :: v :: r
      ∧ decodeIndex (i.extractLsb' 0 13) = some a ∧ (s.modArch 0 (fun x => { x with ds := r })).readGrant 0 a = true
      ∧ (∃ s2, (s.modArch 0 (fun x => { x with ds := r })).regWrite 0 a v = .done s2) ∧ NamedWrite 0 (.lctlWrite 0 .hwr) a v)
    ∧ (∃ i : BitVec 13, decodeIndex i = none) ∧ (∃ i a, decodeIndex i = some a ∧ base.readGrant 0 a = false ∧ base.writeGrant 0 a = false)
    ∧ (∃ i a, decodeIndex i = some a ∧ NamedRead 0 (.ptnsRead 0) a ∧ a.latches = true)
    ∧ NamedOwn 0 (.rstatWrite 0 .hwrc) 0x26 0 :=
  ⟨⟨withStack [0x19, 1], _, _, _, _, issues_of (by decide +kernel), open_of (by decide +kernel) (by decide +kernel), rfl, rfl, rfl,
      by decide +kernel, ⟨_, rfl⟩, .lctl _⟩,
   ⟨0x1fff, by decide +kernel⟩, ⟨0x40, _, rfl, by decide +kernel, by decide +kernel⟩, ⟨0x1a8c, ⟨.ptp, 0, 0x0c⟩, by decide +kernel, .ptns, rfl⟩, .rstat 0⟩

theorem witness_RegisterEffects :
    base.writeGrant 0 ⟨.channel, 11, 0⟩ = true ∧ base.writeGrant 0 ⟨.gauge, 0, 0x10⟩ = true ∧ base.writeGrant 0 ⟨.gauge, 0, 0x20⟩ = true
    ∧ base.writeGrant 0 ⟨.weirCommon, 0, 0⟩ = true ∧ base.ownsClass 0 1 = true
    ∧ base.writeGrant 0 ⟨.inOut, 15, 0⟩ = true ∧ base.writeGrant 0 ⟨.strip, 15, 0⟩ = true ∧ base.writeGrant 0 ⟨.mnCommon, 0, 15⟩ = true
    ∧ (let s := base.modRegion 15 (fun x => { x with owner := some 0, slots := 8 })
       s.writeGrant 0 ⟨.region, 15, 1⟩ = true ∧ (s.region 15).reqSlot.isSome = false ∧ (s.region 15).slots.getLsbD 3 = true
         ∧ (s.region 15).owner = some 0) := by
  decide +kernel

theorem witness_AccessAndIndexMap :
    base.ownsStrip 1 15 = false ∧ ((base.modStrip 15 (fun k => { k with offline := true })).strip 15).offline = true
    ∧ base.ownsClass 0 0 = false ∧ decodeIndex 0 = some ⟨.context, 0, 0⟩ := by
  decide +kernel

theorem witness_BellEntries :
    ((base.ctx 0).spec = none ∧ (base.ctx 0).shadow = none ∧ (base.ctx 0).inBell = false ∧ (inSlot.ctx 0).branch.isSome = true)
    ∧ (∃ s sp, ((base.modCtx 0 (fun c => { c with spec := some s })).ctx 0).spec = some sp)
    ∧ (∃ sh, ((base.modCtx 0 (fun c => { c with shadow := some { left := 1, mask := 0, pending := none } })).ctx 0).shadow = some sh)
    ∧ (∃ r, base.running 0 = true
       ∧ (let c := (base.modCtx 0 (fun c => { c with pend := [r] })).ctx 0
          c.branch = none ∧ c.sync = [] ∧ c.pend = [r])
       ∧ (let c := (base.modCtx 0 (fun c => { c with sync := [r] })).ctx 0
          c.branch = none ∧ c.sync = [r])) :=
  ⟨⟨rfl, rfl, rfl, by decide +kernel⟩, ⟨{ check := .fresh, brc := 0, other := 0, taken := true, strands := 0, held := none, limited := false, arrived := false }, _, rfl⟩,
   ⟨_, rfl⟩, ⟨syncCause 1 0, by decide +kernel, ⟨rfl, rfl, rfl⟩, ⟨rfl, rfl⟩⟩⟩

theorem witness_SlicesAndSwaps :
    (base.unitReady 0 = true ∧ (base.hunit 0).ctx = some 0 ∧ (base.hunit 0).swapPend = false ∧ (base.ctx 0).spec = none
      ∧ (base.ctx 0).sliceLen ≤ base.sliceRun 0)
    ∧ (let w : Waiting := { mask := 4, tt := true, deadline := some (.inl 0) }
       let s := base.modCtx 0 (fun c => { c with state := .waiting, waiting := some w })
       (s.ctx 0).waiting = some w ∧ s.power.phase = .run ∧ s.modes.parked = false ∧ s.waitDue w = true ∧ (s.ctx 0).levels &&& w.mask = 0)
    ∧ (let s := (base.modUnit 0 (fun u => { u with ctx := none })).modCtx 15 (fun c => { c with state := .ready, expired := true, ben := 0x40 })
       s.unitReady 0 = true ∧ (s.hunit 0).ctx = none ∧ (s.hunit 0).buffer = [] ∧ (s.modUnit 0 countSwap).newRounds.richest = some 15
         ∧ s.readyCtxs ≠ [] ∧ (s.ctx 15).rerun.isNone = true ∧ (s.ctx 15).live = true ∧ (s.ctx 15).ben.getLsbD 6 = true) := by
  decide +kernel

/-! ### Witnesses: Braid and Sluice -/

/-- An op of the ROM entry COPY that context 0 has under way, and the state that runs it. -/
def copyOp : StrandOp := base.newOp 0 0x001 (Vector.replicate 8 0) false
def opRuns (f : StrandOp → StrandOp) : State := base.modCtx 0 (fun c => { c with sop := some (f copyOp) })

/-- A speculation on an arrived result. -/
def speculates (f : Spec → Spec) : State :=
  base.modCtx 0 (fun c => { c with
    spec := some (f { check := c.arch, brc := c.pc, other := 0x10004, taken := true, strands := 0, held := none, limited := false, arrived := true }) })

/-- ROM address 004h overlaid by patch block 0 (R169). -/
def patched : State := { base with sluice := { base.sluice with map := [(0x004, 0)] } }
theorem test_patched_entry_leaves_its_contract :
    base.byContract 0x004 = true ∧ patched.byContract 0x004 = false ∧ patched.storeWord 0x004 = patched.sluice.patchRam[0] := by
  decide +kernel

/-- The mask 80h with too few items, with a slot value of 7F7h and of 7F8h, and an entry that is not listed. -/
theorem witness_StrandStartsItsOp :
    (∃ s m rest, StrandRow 0 (.copy 0) 0x001 ∧ Issues s 0 s ∧ (s.ctx 0).spec = none ∧ (s.ctx 0).arch.ds = m :: rest
      ∧ maskCount m ≤ rest.length
      ∧ (takeOps m.toNat (List.finRange 8) rest (s.ctx 0).arch.ops).toList.all (fun v => decide (v.toNat < 0x7f8)) = true
      ∧ s.badEntry 0 0x001 = false ∧ (s.ctx 0).queued = none ∧ (s.ctx 0).sop = none ∧ s.badEntry 0 0x7ff = true)
    ∧ (∃ s m rest, Issues s 0 s ∧ (s.ctx 0).arch.ds = m :: rest ∧ rest.length < maskCount m)
    ∧ ∃ s m rest, Issues s 0 s ∧ (s.ctx 0).arch.ds = m :: rest ∧ maskCount m ≤ rest.length
      ∧ (takeOps m.toNat (List.finRange 8) rest (s.ctx 0).arch.ops).toList.all (fun v => decide (v.toNat < 0x7f8)) = false :=
  ⟨⟨withStack [0x80, 0x7f7], _, _, .copy, issues_of (by decide +kernel), rfl, rfl, by decide +kernel, by decide +kernel, by decide +kernel, rfl, rfl,
      by decide +kernel⟩,
   ⟨withStack [0x80], _, _, issues_of (by decide +kernel), rfl, by decide +kernel⟩,
   ⟨withStack [0x80, 0x7f8], _, _, issues_of (by decide +kernel), rfl, by decide +kernel, by decide +kernel⟩⟩

theorem witness_RomEntriesRun : (0x001#11).getLsbD 10 = false ∧ base.byContract (entryAddr 0x001) = true
    ∧ ((base.saveOutlets 0).newOp 0 0x001 (Vector.replicate 8 0) false).fix = false
    ∧ (romShape 0x001 (Vector.replicate 8 0)).steps.getD 0 ≤ 262144 := by
  decide +kernel

theorem witness_OpEndsAndSpeculation :
    ((opRuns (fun o => { o with ended := .done, conf := some true })).ctx 0).sop = some { copyOp with ended := .done, conf := some true }
    ∧ copyOp.spec = false ∧ (base.ctx 0).queued = none
    ∧ (∃ r, ((base.modCtx 0 (fun c => { c with results := [r] })).ctx 0).results = r :: [])
    ∧ (∃ sp, ((speculates id).ctx 0).spec = some sp ∧ sp.arrived = true ∧ ((speculates id).ctx 0).result ≠ sp.taken)
    ∧ (∃ sp, ((speculates (fun x => { x with taken := false })).ctx 0).spec = some sp ∧ sp.arrived = true ∧ sp.held = none
        ∧ ((speculates (fun x => { x with taken := false })).ctx 0).result = sp.taken ∧ ((speculates id).ctx 0).sop = none)
    ∧ (let o : StrandOp := { copyOp with shift := true, stall := .inlet }
       let s := ({ opRuns (fun _ => o) with time := { base.time with mono := 130 } } : State).modUnit 0 (fun u => { u with swapPend := true })
       (s.ctx 0).sop = some o ∧ s.running 0 = true ∧ (s.hunit 0).swapPend = true ∧ s.akCycles (s.now - o.stallAt) = 65) :=
  ⟨rfl, rfl, rfl, ⟨{ value := true, shares := 1, spec := false }, rfl⟩, ⟨_, rfl, rfl, by decide +kernel⟩,
    ⟨_, rfl, rfl, rfl, by decide +kernel, rfl⟩, by decide +kernel⟩

/-- The op of context 0 at the open region's first entry, and one of a ROM body that a patch block overlays. -/
def openOp : StrandOp := { copyOp with entry := 0x400 }
def openRuns : State := opRuns (fun _ => openOp)
def patchRuns : State := { opRuns id with sluice := { base.sluice with map := [(0x004, 0)] } }

theorem forward_banks (n e : NiId) (u : Nat) (s : State) : (s.forward n e u).banks = s.banks := by
  unfold State.forward
  induction s.pathTo n e generalizing s with
  | nil => rfl
  | cons r l ih => simp only [List.foldl_cons, ih]; rfl

theorem double_reads_bad (s : State) (p : Phys) (portB : Bool) (c : Nat) (h : s.touched p portB c = none) :
    (s.readAt portB p c .double).1.2 = true := by
  simp only [State.readAt, h, State.meetEcc]
  split
  · assumption
  · simp [State.poisoned]

/-- Wherever the copy lies, a double-bit error in its first unit makes it bad. -/
theorem copy_bad {s : State} (e : ∀ b : BankId, (s.bank b).portA.last = []) : (s.readCopy .double).1 = false := by
  have h : ∀ (p q : Phys) (c : Nat), ((s.takeFree.2.forward 0x14 p.ni 1).forward p.ni 0x14 3).touched q true c = none := by
    intro p q c
    have k : ((s.takeFree.2.forward 0x14 p.ni 1).forward p.ni 0x14 3).banks = s.banks := by
      rw [forward_banks, forward_banks]; rfl
    unfold State.touched State.bank
    rw [k]
    split
    · show List.find? _ (s.banks[q.bank].port false).last = none
      rw [show (s.banks[q.bank].port false).last = [] from e q.bank]
      rfl
    · rfl
  unfold State.readCopy
  simp [unitsFrom, State.readsAt, List.range_succ, double_reads_bad, h]

theorem witness_ParityErrors :
    (openRuns.unitOp 0 = some openOp ∧ openRuns.fetches openOp 0xc00 = true ∧ 0xc00 ≤ (0xc00#12).toNat ∧ openRuns.allotmentOf 0xc00 = none
      ∧ (openRuns.readCopy .double).1 = false ∧ openRuns.fetches openOp 0xfff = false)
    ∧ (let s : State := { openRuns with sluice := { openRuns.sluice with len := openRuns.sluice.len.set 0 1 } }
       s.unitOp 0 = some openOp ∧ s.fetches openOp 0xc00 = true ∧ s.allotmentOf 0xc00 = some 0 ∧ (s.ctx 0).live = true ∧ s.power.phase = .run
         ∧ s.faults.stack.length < 4 ∧ (s.readCopy .double).1 = false)
    ∧ (patchRuns.unitOp 0 = some copyOp ∧ patchRuns.fetches copyOp 0x004 = true ∧ (patchRuns.patchWord 0x004).isSome = true
      ∧ (patchRuns.readCopy .double).1 = false)
    ∧ base.poison = [] ∧ (base.bank 16).portA.last = [] ∧ base.running 0 = true := by
  refine ⟨⟨by decide +kernel, by decide +kernel, by decide +kernel, by decide +kernel, copy_bad (by decide +kernel), by decide +kernel⟩,
    ⟨by decide +kernel, by decide +kernel, by decide +kernel, by decide +kernel, by decide +kernel, by decide +kernel, copy_bad (by decide +kernel)⟩,
    ⟨by decide +kernel, by decide +kernel, by decide +kernel, copy_bad (by decide +kernel)⟩, by decide +kernel⟩

/-! ### Witnesses: starts, stops, socket code and Gauge -/

/-- The currents of a branch of `r` milliohms at 2.5 V and 1.5 V, for the diode of R20: 1.85 V and 0.87893 V over the resistance, whose
difference is 1 V less 0.0895 V times the logarithm of their ratio. -/
def passOf (r : Nat) : Pass := { upper := 1850000000000 / r, lower := 878930000000 / r }
def same (p : Pass) : Reading := { pass0 := p, pass1 := p, pass2 := p }
/-- Branches of `f`, `r` and `z` milliohms: at 9 V and 8 V the zener branch's current stands on the forward branch's. -/
def reading (f r z : Nat) : CodeReading :=
  let one := passOf f
  { one := same one, two := same (passOf r),
    three := same { upper := forwardAt f one.upper 6500000000 4 + 2000000000000 / z, lower := forwardAt f one.upper 5500000000 4 + 1000000000000 / z } }
/-- The branches of socket 48. -/
def socket48 : CodeReading := reading 178000000 1600000000 20100000
def startInput : StartInput :=
  { code := socket48, fuseFault := false, badSpares := 0,
    meas := Vector.replicate 12 { gain16 := 0, ofs16 := 0, gain64 := 0, ofs64 := 0 },
    took := 800 * ms, stalls := none, cut := none, fates := [], spareReads := [], upsets := [] }

/-- `base` with another power record. -/
def withPower (f : Power → Power) : State := { base with power := f base.power }
/-- `base` at an instant of its own clock. -/
def atTime (n : Nat) (s : State) : State := { s with time := { s.time with mono := n } }

theorem witness_StartsAndRestarts :
    startInput.fuseFault = false ∧ startInput.badSpares = 0 ∧ startInput.stalls = none ∧ State.reset.power.powered = false
    ∧ ({ startInput with stalls := some 3 } : StartInput).stalls = some 3
    ∧ (let s := atTime (1500 * ms) (withPower (fun p => { p with phase := .starting }))
       s.power.phase = .starting ∧ s.watchdogDue = true)
    ∧ (let s := atTime (250 * ms) (withPower (fun p => { p with retained := { p.retained with restarts := [0, 0] } }))
       s.watchdogDue = true ∧ s.recentRestarts = 2)
    ∧ (let s := atTime (10 * sec) (withPower (fun p => { p with phase := .waitC4, retained := { p.retained with restarts := [0, 0, 0] } }))
       s.power.phase = .waitC4 ∧ s.passed s.power.decidedAt (10 * sec) = true ∧ s.power.vs = .good ∧ s.recentRestarts = 3)
    ∧ (let s := withPower (fun p => { p with phase := .waitSupply, vs := .between })
       s.power.powered = true ∧ s.power.vs ≠ .good ∧ s.power.filter = none ∧ s.power.phase = .waitSupply)
    ∧ (let s := atTime (10 * sec) (withPower (fun p => { p with phase := .waitThermal, coolSince := some 0 }))
       s.power.phase = .waitThermal ∧ s.power.coolSince = some 0 ∧ s.passed 0 (10 * sec) = true ∧ s.power.vs = .good)
    ∧ (let s := withPower (fun p => { p with phase := .stopping, stopCause := .restart })
       s.power.phase = .stopping ∧ s.flushesDone = true ∧ s.power.stopCause = .restart ∧ s.power.c4InStop = false ∧ s.power.vs = .good) := by
  decide +kernel

theorem witness_BrownOutsAndStops :
    (base.power.powered = true ∧ base.power.vs ≠ .belowBrownOut)
    ∧ (let s := withPower (fun p => { p with filter := some 0 })
       s.power.filter = some 0 ∧ s.power.held = [] ∧ 0 + 10 * ms ≤ (atTime (11 * ms) s).now ∧ (atTime (11 * ms) s).now ≤ 0 + 11 * ms
         ∧ 0 + 11 * ms < (atTime (11 * ms + 1) s).now ∧ s.power.phase = .run)
    ∧ (withPower (fun p => { p with phase := .starting, filter := some 0 })).power.phase = .starting
    ∧ (let s := atTime (60 * ms) (withPower (fun p => { p with
         vs := .belowBrownOut, phase := .waitSupply, stopCause := .brownOut, below := some 0, storeFull := true }))
       s.power.powered = true ∧ s.power.vs = .belowBrownOut ∧ s.power.filter = none ∧ s.power.phase ≠ .run ∧ s.power.phase ≠ .stopping
         ∧ s.power.below = some 0 ∧ s.power.storeFull = true ∧ 0 + 60 * ms ≤ s.now)
    ∧ (withPower (fun p => { p with vs := .belowBrownOut, phase := .starting, storeFull := false })).power.storeFull = false
    ∧ (let s := withPower (fun p => { p with phase := .stopping, stopCause := .brownOut, vs := .between })
       s.power.phase = .stopping ∧ s.flushesDone = true ∧ s.power.stopCause = .brownOut ∧ s.power.vs ≠ .good)
    ∧ (let s : State := { withPower (fun p => { p with phase := .stopping }) with net := { base.net with flushing := base.net.flushing.set 0 1 } }
       s.power.phase = .stopping ∧ s.flushesDone = false)
    ∧ (let s := withPower (fun p => { p with phase := .stopping, stopCause := .thermal })
       s.power.phase = .stopping ∧ s.power.stopCause = .thermal) := by
  decide +kernel

theorem witness_SupervisorAndC4 :
    (let s := atTime (60 * ms) (withPower (fun p => { p with phase := .starting }))
     s.power.phase = .starting ∧ s.power.startedAt + 60 * ms ≤ s.now)
    ∧ (let s := withPower (fun p => { p with phase := .stopping })
       ({ s with gauge := { s.gauge with watching := true } } : State).power.phase = .stopping)
    ∧ base.power.phase = .run ∧ base.gauge.pll = 0x1f ∧ base.gauge.rails = 0x1f ∧ base.gauge.standbyB = true
    ∧ ({ base with gauge := { base.gauge with watching := true } } : State).gauge.watching = true := by
  decide +kernel

theorem witness_CodeRereads :
    (let s := atTime (10 * sec) base
     s.power.phase = .run ∧ s.passed s.code.latchAt (10 * sec) = true ∧ (decodeCode socket48).agrees s.code.latched = false
       ∧ s.code.drift = false)
    ∧ (let s : State := { base with code := { base.code with drift := true, lastDiff := some (decodeCode socket48) } }
       s.code.drift = true ∧ ∃ x, s.code.lastDiff = some x ∧ (decodeCode socket48).agrees x = true)
    ∧ (let s : State := { base with code := { base.code with latched := decodeCode socket48, drift := true, agree := 1 } }
       (decodeCode socket48).agrees s.code.latched = true ∧ s.code.drift = true ∧ 1 ≤ s.code.agree) := by
  refine ⟨by decide +kernel, ⟨rfl, _, rfl, by decide +kernel⟩, ?_⟩
  decide +kernel

/-- The die at 111.99, 112, 115, 120 and 125 degrees in units of 1/128 degree, the busy fraction's thresholds, and the loops. -/
theorem witness_GaugeLoops :
    ((112 * 128 - 1#16).toInt < 112 * 128 ∧ 112 * 128 ≤ (112 * 128#16).toInt ∧ 115 * 128 ≤ (115 * 128#16).toInt
      ∧ 120 * 128 ≤ (120 * 128#16).toInt ∧ (125 * 128 - 1#16).toInt < 125 * 128 ∧ 125 * 128 ≤ (125 * 128#16).toInt)
    ∧ base.power.phase = .run ∧ (withPower (fun p => { p with phase := .waitThermal })).power.phase = .waitThermal ∧ base.modes.parked = false
    ∧ 9 * 100 < 10 * 91 ∧ 2 * 49 < 100
    ∧ (let s : State := { base with gauge := { base.gauge with moving := some 11 } }
       s.changing = some 11)
    ∧ (let s : State := atTime (10 * sec) { base with modes := { base.modes with parked := true } }
       s.modes.parked = true ∧ s.passed s.gauge.estAt (10 * sec) = true ∧ 0 ≤ s.gauge.cells[0].e)
    ∧ ((base.modChan 11 (fun c => { c with claims := c.claims.set 0 1 })).chan 11).row = 3
    ∧ (let s := atTime (2 * sec) (base.modPort .b (fun p => { p with state := .training, only24 := true }))
       (s.port .b).state = .training ∧ (s.port .b).only24 = true ∧ s.passed (s.port .b).trainAt (2 * sec) = true) := by
  decide +kernel

/-! ### Witnesses: modes, findings, Catchment and Meander -/

def shadowed (pending : Option Raise) : State :=
  base.modCtx 0 (fun c => { c with shadow := some { left := 0, mask := 0x08, pending := pending } })

theorem witness_ModeCommits : ((shadowed none).ctx 0).shadow = some { left := 0, mask := 0x08, pending := none }
    ∧ ((shadowed (some (syncCause 1 0))).ctx 0).shadow = some { left := 0, mask := 0x08, pending := some (syncCause 1 0) } := by
  decide +kernel

def withModes (f : Modes → Modes) : State := { base with modes := f base.modes }

theorem witness_HardwareEntries :
    (base.power.phase = .run ∧ base.proofOpen = false ∧ base.modes.dueAt ≤ base.wholeSecond)
    ∧ (let s := withModes (fun m => { m with
         dueAt := 1, window := some { scheduled := false, requester := some 0, openAt := 0, closeAt := 400 * ms } })
       s.wholeSecond < s.modes.dueAt ∧ s.requestDue = some 0 ∧ s.proofOpen = false)
    ∧ (let s := atTime (1200 * ms) (withModes (fun m => { m with
         hw := 0x80, window := some { scheduled := true, requester := none, openAt := 0, closeAt := 1200 * ms } }))
       s.proofOpen = true ∧ 1200 * ms ≤ s.now)
    ∧ (let s := atTime (30 * sec) ({ base with find := { base.find with verdictAt := some 0 } } : State)
       s.find.verdictAt = some 0 ∧ s.power.phase = .run ∧ s.modes.keeperLost = false ∧ 0 + 30 * sec ≤ s.now ∧ s.mill.keeperAt + 30 * sec ≤ s.now)
    ∧ (let s := (withModes (fun m => { m with act := 0x10 })).modCtx 0 (fun c => { c with state := .idle })
       s.mayPark = true)
    ∧ (let s := base.modCtx 0 (fun c => { c with cap := { c.cap with burst := true, len := 1 } })
       let s : State := { s with time := { s.time with si := 1 } }
       (s.ctx 0).cap.burst = true ∧ (s.ctx 0).cap.len ≠ 0 ∧ (s.ctx 0).cap.len.toNat ≤ (s.time.si - (s.ctx 0).cap.fromSi).toNat) := by
  decide +kernel

/-- A record that is good, with HEAD four ahead; one refused (a reserved bit); HEAD five ahead; and a ledger of one finding. -/
theorem witness_OutboxAndLedger :
    (let s : State := { base with pool := [(0, 4), (4, 0x100)] }
     s.outbox 0 = some { eddy := false, word := 0 } ∧ s.cleanAt { eddy := false, word := 0 } = true ∧ s.power.phase = .run
       ∧ (s.lockRead { eddy := false, word := 0 } 1).cleanAt { eddy := false, word := 0 } = true
       ∧ (s.headOf { eddy := false, word := 0 } - (s.tfind 0).taken).toNat = 4 ∧ ((s.lockRead { eddy := false, word := 0 } 1).recordRead { eddy := false, word := 4 }).recRefused { eddy := false, word := 4 } = none)
    ∧ (let s : State := { base with pool := [(0, 5), (4, 0x800000000)] }
       (s.headOf { eddy := false, word := 0 } - (s.tfind 0).taken).toNat = 5 ∧ (s.ctx 0).live = true
         ∧ (s.lockRead { eddy := false, word := 0 } 1).cleanAt { eddy := false, word := 0 } = true
         ∧ (((s.lockRead { eddy := false, word := 0 } 1).recordRead { eddy := false, word := 4 }).recRefused
             { eddy := false, word := 4 }).isSome = true)
    ∧ (let s : State := { base with pool := [(0, 4)], poison := [({ eddy := false, word := 0 } : Phys).unitKey] }
       s.outbox 0 = some { eddy := false, word := 0 } ∧ (s.lockRead { eddy := false, word := 0 } 1).cleanAt { eddy := false, word := 0 } = false)
    ∧ (let s : State := atTime (5 * ms) { base with
         ks := { base.ks with ledger := [{ tenant := 0, body := [], absent := false }] }, find := { base.find with verdictAt := some 0 },
         modes := { base.modes with replay := true } }
       s.ks.ledger = { tenant := 0, body := [], absent := false } :: [] ∧ s.speaks = true ∧ s.modes.replay = true ∧ s.modes.keeperLost = false
         ∧ s.modes.replayAt + 5 * ms ≤ s.now) := by
  decide +kernel

/-- A lane frame of zeros with its sync byte and its CRC. -/
def goodFrame : Vector Byte 31 :=
  let b : List Byte := 0xbc :: List.replicate 28 0 ++ bytesBE (crc16 (List.replicate 28 0)) 2
  Vector.ofFn (fun i => byteAt b i.val)

theorem witness_LaneFrames : base.power.phase = .run ∧ (∀ c, (base.ctx c).sop = none) ∧ base.ct.lanes[(2 : Fin 3)].up = true
    ∧ frameGood true goodFrame.toList = true ∧ frameGood false goodFrame.toList = false := by
  decide +kernel

theorem witness_LanesRangesAndSelfTest :
    (let s := atTime (10 * ms) ({ base with ct := { base.ct with lanes := base.ct.lanes.set 2 { LaneState.fresh with up := false } } } : State)
     s.ct.lanes[(2 : Fin 3)].up = false ∧ s.ct.lanes[(2 : Fin 3)].lastTry + 10 * ms ≤ s.now)
    ∧ (let s := base.modChan 11 (fun c => { c with claims := c.claims.set 0 3 })
       s.bursting = false ∧ (s.chan 11).wanted ≠ (s.chan 11).rng)
    ∧ (base.modCtx 0 (fun c => { c with cap := { c.cap with burst := true } })).bursting = true
    ∧ (let s := withModes (fun m => { m with
         hw := 0x80, window := some { scheduled := true, requester := none, openAt := 0, closeAt := 1200 * ms } })
       s.axisDue 0 = true ∧ s.ct.axis = none)
    ∧ (let s := atTime (1200 * ms) ({ base with
         modes := { base.modes with
           hw := 0x80, window := some { scheduled := true, requester := none, openAt := 0, closeAt := 1200 * ms } },
         ct := { base.ct with axis := some 10 } } : State)
       s.axisDue 11 = true ∧ s.ct.axis = some 10) := by
  decide +kernel

/-- Region 15 runs on a tree of its own, with a tap and a valid output among its ports. -/
def regionRuns (f : RegionSt → RegionSt) : State :=
  base.modRegion 15 (fun x => f { x with
    owner := some 0, state := .running, source := 1, tapTaken := false, postTaken := false, outs := Vector.replicate 40 true, pend := 1,
    image := { x.image with outputs := ((x.image.outputs.set 0 1).set 1 2).set 2 0x30 } })

theorem witness_TreeEdges : ((regionRuns id).region 15).state = .running ∧ (regionRuns id).treeRuns 15 = true := by decide +kernel

theorem onPaths_nil (im : Image) (n : Nat) : onPaths im n [] = [] := by
  induction n with
  | zero => rfl
  | succ n ih => simpa [onPaths] using ih

/-- An image whose cells are all registered has no closed path. -/
theorem witness_LogicSettles : closedPath { Image.blank with cells := Vector.replicate 384 0x10000 } = false := by
  simp [closedPath, cellReg, onPaths_nil]

theorem witness_FabricCommands :
    (let x := (regionRuns id).region 15
     x.state = .running ∧ x.tapTaken = false ∧ x.outputOf 2 = some true ∧ x.outputOf 1 = some true ∧ x.tapFifo.length < 8
       ∧ x.postTaken = false ∧ x.outputOf 0x30 = some true ∧ x.postReady = true ∧ x.owner = some 0 ∧ x.fifo = []) ∧ (regionRuns id).postHeld 15 0 0x8fff = false ∧ ((regionRuns id).nextTag (postNi 15)).isSome = true
    ∧ ((regionRuns (fun x => { x with tapFifo := List.replicate 8 (.whole true), source := 3, divM1 := 1 })).region 15).direct = false
    ∧ ((regionRuns id).region 15).direct = true
    ∧ (let s := regionRuns (fun x => { x with paddr := 0x8fff })
       s.translate 0 0x8fff true = some { eddy := false, word := 0xfff } ∧ s.poisoned { eddy := false, word := 0xfff } = false
         ∧ s.memOk = true ∧ s.translate 0 0x9000 true = none)
    ∧ ((regionRuns (fun x => { x with sw := true })).region 15).sw = true
    ∧ (let s := regionRuns (fun x => { x with reqSlot := some 3, slots := 8 })
       let s : State := { s with mea := { s.mea with queue := [15] } }
       s.power.phase = .run ∧ s.mea.engine = none ∧ s.mea.queue = [15] ∧ (s.region 15).reqSlot = some 3 ∧ s.faults.stack.length < 4
         ∧ (s.bank 17).portA.last = [] ∧ ∀ u ∈ unitsFrom (slotAt 15 3) 128, s.poisoned u = false)
    ∧ (let s : State := { base with poison := [(slotAt 15 3).unitKey] }
       ∃ u ∈ unitsFrom (slotAt 15 3) 128, s.poisoned u = true) := by
  refine ⟨by decide +kernel, by decide +kernel, by decide +kernel, by decide +kernel, by decide +kernel, by decide +kernel, by decide +kernel,
    by decide +kernel, slotAt 15 3, by decide +kernel, by decide +kernel⟩

/-! ### Witnesses: network, memories and the Weir -/

/-- The route tables as a start writes them, with every route valid and the shortest timeout. -/
def netState (f : Net → Net) : State :=
  { base with net := f { base.net with
      routes := Vector.ofFn (fun n => Vector.ofFn (fun e => { routeEntry n e.val with valid := true, tmo := 0 })) } }

/-- A request of unit 0 for units of the Pool's second block, the window's last, for the load that context 0 issues. -/
def request (len : BitVec 4) (addr : BitVec 23) : Req :=
  { src := 0, dest := 8, ten := 0, qc := 1, tag := 63, len := len, addr := addr, purpose := .load 0 0x8800, damage := [], ecc := [] }

/-- The same for a store, and for a register transaction. -/
def storeRequest (len : BitVec 4) (addr : BitVec 23) : Req := { request len addr with purpose := .store 0 0x8800 }
def regRequest (i : BitVec 13) : Req :=
  { request 0 (i.zeroExtend 23) with dest := 0x17, purpose := .register 0 i }

theorem reaches_of {s : State} {n e : NiId} {r : RouterId} {l : Bool} (h : (followRoute 7 niPlace[n].1 (s.routeTo n e).hops).2 = .ejected r l)
    (h' : niAt r l = some e) : s.reaches n e := ⟨_, r, l, Prod.ext rfl h, h'⟩

theorem requested_of {s : State} {p : Packet} {n : Nat} (h : s.ready p.req p.posted = true ∧ s.mayRequest p.cmd p.req = true
    ∧ s.niAllows p.req (cmdWrites p.cmd) n = true ∧ s.mayInject p = true) (hd : p.req.damage = []) (hr : s.reaches p.req.src p.req.dest) :
    Requested s p n := ⟨h.1, h.2.1, h.2.2.1, ⟨h.2.2.2, hd, hr⟩⟩

theorem served_of {s : State} {p : Packet} (h : p.req.phys.ni = p.req.dest ∧ s.zeroShare p.req.qc p.req.phys = false
    ∧ (s.bank p.req.phys.bank).state ≠ .offline ∧ s.servesNow p.req p.cmd = true ∧ p.req.ecc = [] ∧ p.req.phys.eddy = false) : Served s p :=
  ⟨⟨h.1, h.2.1, h.2.2.1⟩, h.2.2.2.1, h.2.2.2.2.1, fun e => absurd e (by simp [h.2.2.2.2.2])⟩

/-- Inlets with room for one plane and with none, and outlets onto the window's last 32 words and beyond. -/
theorem witness_InletsAndOutlets :
    (let s := base.modInlet 15 (fun i => { i with filled := 1024, lenM1 := 1, count := 1 })
     (s.strip 15).owner = some 0 ∧ (s.ctx 0).sop = none ∧ Mem.wf 0 s.braid.planes = true ∧ 1024 ≤ (s.strip 15).inlet.filled
       ∧ (s.strip 15).inlet.count < (s.strip 15).inlet.lenM1.toNat + 1)
    ∧ (let s := base.modInlet 15 (fun i => { i with filled := 1024, lenM1 := 1, count := 2 })
       (s.strip 15).inlet.lenM1.toNat + 1 ≤ (s.strip 15).inlet.count)
    ∧ (let s := (netState id).modOutlet 15 (fun o => { o with ready := [1], addr := 0x8fe0, qc := 1 })
       let p : Phys := { eddy := false, word := 0xfe0 }
       let x := ownPacket (quadNi 15) cmdWrp 0 1 0 p 15 (.outlet 15) (outletUnits 1) { damage := [], back := [], ecc := [] }
       (s.memOk = true ∧ (s.strip 15).outlet.ready = [1] ∧ s.power.phase = .run ∧ s.quadBusy 15 = false
         ∧ s.outletTarget 0 (s.strip 15).outlet.addr = some p) ∧ p.there ∧ s.unharmed ∧ Travels s x ∧ Served s x)
    ∧ base.outletTarget 0 0x8fe1 = none := by
  refine ⟨by decide +kernel, by decide +kernel, ⟨by decide +kernel, by unfold Phys.there; decide, rfl,
    ⟨by decide +kernel, rfl, reaches_of rfl rfl⟩, served_of (by decide +kernel)⟩, by decide +kernel⟩

/-- A direct region posts its word to the last word of the window. -/
theorem witness_FabricCommands_post :
    (let s : State := { netState id with mea := (regionRuns (fun x => { x with paddr := 0x8fff })).mea }
     let x := s.region 15
     let p : Phys := { eddy := false, word := 0xfff }
     let y := ownPacket (postNi 15) cmdWrw 0 (s.defaultLabel 0) 0 p 0 (.post 15 0x8fff) [x.postWord.zeroExtend 72]
       { damage := [], back := [], ecc := [] }
     (x.postTaken = false ∧ x.outputOf 0x30 = some true ∧ x.postReady = true ∧ x.direct = true ∧ x.fifo = [] ∧ x.owner = some 0
       ∧ s.postHeld 15 0 x.paddr = false ∧ s.nextTag (postNi 15) = some 0 ∧ s.translate 0 x.paddr true = some p ∧ s.memOk = true
       ∧ s.poisoned p = false) ∧ p.there ∧ s.unharmed ∧ Travels s y ∧ Served s y) := by
  refine ⟨by decide +kernel, by unfold Phys.there; decide, rfl, ⟨by decide +kernel, rfl, reaches_of rfl rfl⟩, served_of (by decide +kernel)⟩

/-- A read of the last sixteen units of the window; a word written there; sixteen units written by PM's engine MB. -/
theorem witness_MemoryPackets :
    (let s := netState id
     let p := requestPacket cmdRd (request 15 0xfe0) [] false false
     Requested s p 16 ∧ Served s p ∧ ∀ u ∈ unitsFrom p.req.phys 16, s.poisoned u = false)
    ∧ (let s := netState id
       let p := requestPacket cmdWrw (storeRequest 0 0xfff) [77] false false
       Requested s p 1 ∧ Served s p ∧ s.poisoned p.req.phys = false ∧ s.memOk = true ∧ s.net.snoops = [] ∧ s.net.snooping = [])
    ∧ (let s := netState id
       let q : Req := { request 15 0xfe0 with src := 0x12, qc := 0, purpose := .system }
       let us := List.replicate 16 (0 : BitVec 72)
       us.length = q.units ∧ q.phys.word % 2 = 0 ∧ Requested s (requestPacket cmdWr q us false false) q.units
         ∧ Served s (requestPacket cmdWr q us false false) ∧ Requested s (requestPacket cmdWrp q us false true) q.units
         ∧ Served s (requestPacket cmdWrp q us false true))
    ∧ ((netState id).modBank 0 (fun b => { b with state := .offline }) |>.bank (request 15 0xfe0).phys.bank).state = .offline := by
  refine ⟨⟨requested_of (by decide +kernel) rfl (reaches_of rfl rfl), served_of (by decide +kernel), by decide +kernel⟩,
    ⟨requested_of (by decide +kernel) rfl (reaches_of rfl rfl), served_of (by decide +kernel), by decide +kernel, by decide +kernel, rfl, rfl⟩,
    ⟨by decide +kernel, by decide +kernel, requested_of (by decide +kernel) rfl (reaches_of rfl rfl), served_of (by decide +kernel),
      requested_of (by decide +kernel) rfl (reaches_of rfl rfl), served_of (by decide +kernel)⟩, by decide +kernel⟩

theorem witness_RegisterPackets :
    (let s := netState id
     Requested s (requestPacket cmdRegrd (regRequest 0x19) [] false false) 1 ∧ decodeIndex 0x19 = some ⟨.context, 0, 0x19⟩)
    ∧ (let w := requestPacket cmdRegwr (regRequest 0x19) [1] false false
       Requested (netState id) w 1 ∧ ∃ u, (((netState id).inject w).2).regWrite 0 ⟨.context, 0, 0x19⟩ 1 = .done u)
    ∧ (let w := requestPacket cmdRegwr (regRequest 0x100) [1] false false
       Requested (netState id) w 1 ∧ (((netState id).inject w).2).regWrite 0 ⟨.context, 4, 0⟩ 1 = .refused)
    ∧ (let q : Req := { request 15 0 with src := 0x11, dest := 0x10, qc := 0, purpose := .system }
       Requested (netState id) (requestPacket cmdBstr q (List.replicate 16 0) false true) 1) :=
  ⟨⟨requested_of (by decide +kernel) rfl (reaches_of rfl rfl), by decide +kernel⟩,
   ⟨requested_of (by decide +kernel) rfl (reaches_of rfl rfl), _, rfl⟩, ⟨requested_of (by decide +kernel) rfl (reaches_of rfl rfl), rfl⟩,
   requested_of (by decide +kernel) rfl (reaches_of rfl rfl)⟩

/-- A tag of the request, with a response or none. -/
def tagOf (retired : Bool) (r : Option Response) : Tag :=
  { ni := 0, tag := 63, req := request 0 0x800, write := false, own := false, retired := retired, at_ := 0, resp := r, respAt := 0, back := [] }
def tagged (retired : Bool) (r : Option Response) : State := netState (fun n => { n with tags := [tagOf retired r] })

theorem witness_ResponsesAndTimeouts :
    (∃ x, (tagged false (some .ack)).findTag 0 63 = some x ∧ x.resp = some .ack ∧ x.retired = false
      ∧ (tagged false (some .ack)).mayDeliver x = true ∧ (tagged false (some .ack)).reaches x.req.dest 0)
    ∧ (∃ x, (tagged false (some (.rdata [(0, true)]))).findTag 0 63 = some x ∧ x.req.wanted = 0 ∧ x.req.purpose = .load 0 0x8800)
    ∧ ((base.ctx 0).live = true ∧ base.power.phase = .run)
    ∧ (∃ x, (tagged true (some (.err 3))).findTag 0 63 = some x ∧ x.resp = some (.err 3) ∧ x.retired = true)
    ∧ (let s := atTime 10240 (tagged false none)
       ∃ x, s.findTag 0 63 = some x ∧ x.retired = false ∧ s.passed x.at_ (s.timeoutOf x) = true)
    ∧ (let s := atTime 10240 (tagged true none)
       ∃ x, s.findTag 0 63 = some x ∧ x.retired = true ∧ s.passed x.at_ (s.timeoutOf x) = true)
    ∧ (let s := netState (fun n => { n with flushing := n.flushing.set 23 1 })
       s.net.flushing[(23 : Fin 24)] ≠ 0 ∧ s.net.draining[(23 : Fin 24)] = 0)
    ∧ (netState (fun n => { n with draining := n.draining.set 23 3 })).net.draining[(23 : Fin 24)] ≠ 0 :=
  ⟨⟨_, rfl, rfl, rfl, by decide +kernel, reaches_of rfl rfl⟩, ⟨_, rfl, by decide +kernel, rfl⟩, by decide +kernel, ⟨_, rfl, rfl, rfl⟩,
    ⟨_, rfl, rfl, by decide +kernel⟩, ⟨_, rfl, rfl, by decide +kernel⟩, by decide +kernel, by decide +kernel⟩

theorem witness_SnoopsReleaseWrites :
    ((1 : BitVec 11).toNat, (3 : NiId), false) ∈ (netState (fun n => { n with snooping := [(1, 3, false)] })).net.snooping
    ∧ (let s := netState (fun n => { n with
         snooping := [(1, 3, true)], heldAck := [(1, 0, .tag 63), (1, 0, .tag 62)],
         tags := [tagOf false none, { tagOf false none with tag := 62, own := true }] })
       ((1 : BitVec 11).toNat, (3 : NiId), true) ∈ s.net.snooping
         ∧ (1, 0, AckFor.tag 63) ∈ s.net.heldAck ∧ (1, 0, AckFor.tag 62) ∈ s.net.heldAck
         ∧ (∃ x, s.findTag 0 63 = some x ∧ x.own = false)
         ∧ (∃ x, s.findTag 0 62 = some x ∧ x.own = true ∧ x.retired = false ∧ x.back = [] ∧ s.reaches x.req.dest 0)) :=
  ⟨by decide +kernel, by decide +kernel, by decide +kernel, by decide +kernel, ⟨_, rfl, rfl⟩, _, rfl, rfl, rfl, rfl, reaches_of rfl rfl⟩

/-- A packet of class 1 that waits in the queue of Pool group 0. -/
def queued (tag : BitVec 6) : Packet :=
  { requestPacket cmdRd { request 0 0x800 with tag := tag } [] false false with stage := .queued }

/-- Bank 19 at its last unit, and a shortfall at group 3 whose condition has held for 4 096 cycles. -/
theorem witness_ScrubbingAndWeirWindows :
    (let s := atTime 2560 (base.modBank 19 (fun b => { b with scrub := 8191 }))
     s.dieOn = true ∧ (s.bank 19).state = .active ∧ (s.bank 19).scrubAt + 2560 ≤ s.now ∧ (s.bank 19).scrub.toNat < 8192
       ∧ s.poisoned (bankPlace 19 (s.bank 19).scrub.toNat) = false ∧ (s.bank 19).portB.last = [] ∧ (s.bank 19).portA.free ≤ s.cycle)
    ∧ (let s := base.modBank 0 (fun b => { b with unc := 15, portA := { b.portA with free := 1 } })
       15 ≤ (s.bank 0).unc.toNat ∧ s.faults.stack.length < 4 ∧ s.cycle < (s.bank 0).portA.free)
    ∧ (let s := atTime 163840 base
       s.power.phase = .run ∧ s.weir.winAt + 163840 ≤ s.now)
    ∧ (let s0 := netState (fun n => { n with waits := (List.range 28).map (fun i => queued (BitVec.ofNat 6 i)) })
       let s : State := atTime 10240 { s0 with weir := { s0.weir with fullAt := s0.weir.fullAt.set 0 (some 0) } }
       s.power.phase = .run ∧ s.weir.sf.getLsbD 0 = false ∧ s.weir.fullAt[(0 : Group)] = some 0 ∧ 0 + 4096 ≤ s.cycle
         ∧ (s.cls 1).recd.owner.isSome = true ∧ ((s.cls 1).bytes[(0 : Group)]).toNat < (s.cls 1).recd.budget[(0 : Group)]
         ∧ 0 < (s.cls 1).recd.share[(0 : Group)]
         ∧ (s.cls 1).recd.share[(0 : Group)] ≤ (s.net.waits.filter (fun p =>
             decide (p.stage = .queued) && decide (p.req.qc = 1) && decide (p.group = some 0))).length)
    ∧ (let s := netState (fun n => { n with waits := (List.range 28).map (fun i => queued (BitVec.ofNat 6 i)) })
       (s.watchShares.weir.fullAt[(0 : Group)]).isSome = true ∧ ∃ p ∈ s.net.waits, p.req.qc = 1 ∧ p.group = some 0) := by
  refine ⟨by decide +kernel, by decide +kernel, by decide +kernel, by decide +kernel, by decide +kernel, queued 0, by decide +kernel,
    by decide +kernel, by decide +kernel⟩

/-- A request of a class at its cap, one of a class without a share, one for a busy bank, and one of two that the bank takes. -/
theorem witness_QueuesAndPriority :
    (let q := request 15 0xfe0
     let s := (netState id).modCls 1 (fun c => { c with out := BitVec.ofNat 7 c.recd.cap })
     s.ready q false = true ∧ s.mayRequest cmdRd q = true ∧ s.niAllows q false q.units = true ∧ (requestPacket cmdRd q [] false false).group = some 0
       ∧ (s.cls 1).recd.cap ≤ (s.cls 1).out.toNat)
    ∧ (let p := requestPacket cmdRd (request 15 0xfe0) [] false false
       let s := (netState id).modCls 1 (fun c => { c with recd := { c.recd with share := Vector.replicate 4 0 } })
       Requested s p 16 ∧ p.req.phys.ni = p.req.dest ∧ s.zeroShare 1 p.req.phys = true)
    ∧ (let p := requestPacket cmdRd (request 15 0xfe0) [] false false
       let s := (netState id).modBank 0 (fun b => { b with portA := { b.portA with free := 1 } })
       Requested s p 16 ∧ Placed s p.req ∧ s.servesNow p.req cmdRd = false ∧ s.entryOpen 1 p.req.phys = true ∧ s.wayClear p.req cmdRd = true)
    ∧ (netState id).pick [queued 1, { queued 2 with req := { (queued 2).req with qc := 0 } }] (some 0)
        = some { queued 2 with req := { (queued 2).req with qc := 0 } }
    ∧ (let s : State := { netState id with weir := { base.weir with sf := 1 } }
       s.weir.sf.getLsbD 0 = true ∧ (s.cls 1).overBudget 0 = false ∧ (s.pick [queued 1, queued 2] (some 0)) = some (queued 1)) :=
  ⟨by decide +kernel, ⟨requested_of (by decide +kernel) rfl (reaches_of rfl rfl), by decide +kernel, by decide +kernel⟩,
   ⟨requested_of (by decide +kernel) rfl (reaches_of rfl rfl), ⟨by decide +kernel, by decide +kernel, by decide +kernel⟩, by decide +kernel,
     by decide +kernel, by decide +kernel⟩, by decide +kernel, by decide +kernel⟩

/-! ### Witnesses: ring link and ring time -/

/-- Both ports Up and relaying; the node's address is that of socket 5; the first house verdict has come. -/
def ringBase : State :=
  { base with
    code := { base.code with latched := { CodeOutcome.fresh with s := some 5 } }
    find := { base.find with verdictAt := some 0 }
    ring := { base.ring with
      portA := { PortSt.fresh with state := .up, relaying := true }, portB := { PortSt.fresh with state := .up, relaying := true } } }

def frameFor (dst : BitVec 48) (et : BitVec 16) (b : List Byte) : FrameIn :=
  { frame := { dst := dst, src := 0x02ff00000001, path := 0, seq := 7, etherType := et, payload := b, invalid := false },
    tagged := true, lsduOk := true, fcsOk := true }

theorem witness_PortsAndLinks :
    (let s := base.modPort .b (fun p => { p with state := .training, only24 := true })
     s.power.powered = true ∧ (s.port .b).state = .training ∧ (s.port .b).trainAt ≤ s.now ∧ s.ring.relayAt ≤ s.now)
    ∧ (ringBase.port .b).state = .up ∧ ringBase.power.powered = true
    ∧ (let s : State := { ringBase with ptp := { ringBase.ptp with timePort := some .a } }
       s.ptp.timePort = some .a ∧ (s.port (otherPort .a)).state = .up) := by
  decide +kernel

theorem witness_FramesByTheirRows :
    ringBase.power.powered = true ∧ (ringBase.port .a).state = .up ∧ (ringBase.port .a).relaying = true
    ∧ (let g := (frameFor supervisionGroup etSupervision []).frame
       g.src ≠ ringBase.address ∧ g.etherType ≠ etPtp ∧ ringBase.knownAt g = none ∧ g.dst ≠ ringBase.address ∧ ringBase.consumes = true)
    ∧ (let s : State := atTime 1 { ringBase with ring := { ringBase.ring with known := [(0x02ff00000001, 7, 0)] } }
       s.knownAt (frameFor 0 etMillrace []).frame = some 0 ∧ 0 < s.now)
    ∧ (let s : State := { ringBase with ring := { ringBase.ring with sentOwn := [(ringBase.address, 7, 0)] } }
       s.sentPair { (frameFor 0 etMillrace []).frame with src := s.address } = true)
    ∧ (frameFor ringBase.address etMillrace []).frame.dst = ringBase.address := by
  decide +kernel

theorem witness_RelayedFramesAndTables :
    ((frameFor ptpGroup etPtp (1 :: List.replicate 33 0)).frame.ptpType = some 1
      ∧ (frameFor ptpGroup etPtp (8 :: List.replicate 33 0)).frame.ptpType = some 8
      ∧ ringBase.syncResidence .a (frameFor ptpGroup etPtp (8 :: List.replicate 33 0)).frame = none
      ∧ ({ ringBase with ring := { ringBase.ring with resid := [(.a, 0, 9, 0)] } } : State).syncResidence .a
          (frameFor ptpGroup etPtp (8 :: List.replicate 33 0)).frame = some 9)
    ∧ ringBase.relayRoom .b (frameFor ptpGroup etPtp (8 :: List.replicate 33 0)).frame
    ∧ ringBase.ring.nodes.length < 80
    ∧ (ringBase.port .a).qRelay = [] ++ []
    ∧ (let s := atTime (2 * sec) ringBase
       s.speaks = true ∧ s.ring.supvAt + 2 * sec ≤ s.now) :=
  ⟨by decide +kernel, by unfold State.relayRoom; decide +kernel, by decide +kernel, rfl, by decide +kernel⟩

def announce (identity : BitVec 64) (p1 cls : Byte) : AnnounceMsg :=
  { src := 0x02ff00000001, identity := identity, priority1 := p1, clockClass := cls, accuracy := 0, variance := 0, priority2 := 0, steps := 254,
    utcOffset := 37, utcValid := true, domain := 0 }

/-- `ringBase` with a keeper, whose Syncs come to port A. -/
def kept (f : Ptp → Ptp) : State :=
  { ringBase with ptp := f { ringBase.ptp with keeper := some (announce 1 128 6), timePort := some .a, delayOk := true, lastAnn := some 0 } }

theorem witness_KeeperAndTimePort :
    (ringBase.consumes = true ∧ (announce 2 127 6).domain = 0 ∧ (announce 2 127 6).steps.toNat < 255 ∧ ringBase.ptp.keeper = none)
    ∧ (let s := kept id
       s.ptp.keeper = some (announce 1 128 6) ∧ (announce 2 127 6).priority1 < (announce 1 128 6).priority1
         ∧ (announce 2 128 5).clockClass < (announce 1 128 6).clockClass ∧ (announce 2 128 5).identity ≠ (announce 1 128 6).identity)
    ∧ (let s := atTime (3 * sec) (kept id)
       s.ptp.lastAnn = some 0 ∧ 0 + 3 * sec ≤ s.now)
    ∧ (let s := atTime sec (kept (fun p => { p with lastSyncA := some 0, lastSyncB := some 1, burst := 4, asked := 1 }))
       s.ptp.timePort = some .a ∧ s.ptp.lastSync .a = some 0 ∧ 0 + sec ≤ s.now ∧ s.ptp.lastSync .b = some 1 ∧ s.now < 1 + sec
         ∧ s.speaks = true ∧ s.delayReqDue = true ∧ s.keeperAddr = some 0x02ff00000001 ∧ s.ptp.asked ≠ 0) := by
  decide +kernel

theorem witness_SyncsAndLock :
    (let s := kept id
     s.consumes = true ∧ s.keeperAddr = some 0x02ff00000001 ∧ s.ptp.timePort = some .a ∧ s.ptp.delayOk = true ∧ s.ptp.state = .unlocked)
    ∧ (kept (fun p => { p with timePort := none })).ptp.timePort = none ∧ (kept (fun p => { p with delayOk := false })).ptp.delayOk = false
    ∧ (let s := kept (fun p => { p with state := .acquiring, good := 15, bad := 3 })
       s.ptp.state ≠ .unlocked ∧ 15 ≤ s.ptp.good ∧ (200 : Int).natAbs ≤ 200 ∧ 800 < (-801 : Int).natAbs ∧ 3 ≤ s.ptp.bad)
    ∧ (let s := atTime (3 * sec) (kept (fun p => { p with state := .locked, lastSyncA := some 0, lastSyncB := some 0 }))
       s.ptp.lastSyncA = some 0 ∧ s.ptp.lastSyncB = some 0 ∧ 0 + 3 * sec ≤ s.now ∧ s.ptp.state ≠ .unlocked) := by
  decide +kernel

/-! ### Witnesses: Millrace, bundles and faults -/

/-- A message of the type with the body, from socket 5's neighbour 6, or from the keeper, to `dst`. -/
def message (dst : BitVec 48) (type : Byte) (body : List Byte) : Message :=
  { src := 0x02ff00000001, dst := dst, bytes := [1, type] ++ bytesBE body.length 2 ++ [0, 0, 6, 0] ++ bytesBE 9 8 ++ body }

def takes (s : State) (m : Message) (n : Nat) : Bool :=
  decide (m.type = n) && s.consumes && m.headOk && m.bodyOk && s.addressed m && (!keeperOnly n || s.fromKeeper m)

theorem takes_of {s : State} {m : Message} {n : Nat} (h : takes s m n = true) : Takes s m n := by
  simp only [takes, Bool.and_eq_true, Bool.or_eq_true, Bool.not_eq_true', decide_eq_true_eq] at h
  obtain ⟨⟨⟨⟨⟨a, b⟩, c⟩, d⟩, e⟩, f⟩ := h
  exact ⟨a, b, c, d, e, fun k => f.resolve_left (by simp [k])⟩

/-- A ROLL with one entry, for socket 5. -/
def rollBody : List Byte := List.replicate 8 0 ++ [1, 0, 0, 0] ++ [5, 1, 0, 0, 0, 9]

theorem witness_MessagesTaken :
    (MessageRow .roll 6 ∧ (message nodeGroup 6 rollBody).type = 6 ∧ (kept id).consumes = true)
    ∧ (message nodeGroup 6 []).bodyOk = false ∧ ringBase.fromKeeper (message nodeGroup 6 rollBody) = false ∧ State.reset.consumes = false
    ∧ (Takes (kept id) (message nodeGroup 6 rollBody) 6 ∧ (kept id).code.latched.s = some 5 ∧ (kept id).bySerial = false
      ∧ byteAt (message nodeGroup 6 rollBody).body 12 = 5 ∧ (byteAt (message nodeGroup 6 rollBody).body 13).getLsbD 0 = true)
    ∧ Takes (kept id) (message nodeGroup 5 (List.replicate 22 0)) 5 :=
  ⟨⟨.roll, by decide +kernel, by decide +kernel⟩, by decide +kernel, by decide +kernel, by decide +kernel,
   ⟨takes_of (by decide +kernel), by decide +kernel, by decide +kernel, by decide +kernel, by decide +kernel⟩, takes_of (by decide +kernel)⟩

/-- `ringBase` with buddy 6, present. -/
def buddyBase (f : RingMap → RingMap) : State :=
  ({ ringBase with mill := { ringBase.mill with buddies := [6] } } : State).modSocket 6 (fun m => f { m with heard := true, present := true })

/-- The body of a LOSS that names socket `b` with count 0. -/
def lossBody (b : Byte) : List Byte := b :: 1 :: List.replicate 22 0

theorem witness_Buddies :
    (ringBase.speaks = true ∧ ringBase.mill.pulses = 0)
    ∧ Takes ringBase (message nodeGroup 1 (List.replicate 16 0)) 1 ∧ (message nodeGroup 1 (List.replicate 16 0)).socket.toNat < 64
    ∧ (let s := atTime (520 * ms) (buddyBase id)
       s.speaks = true ∧ s.watched 6 = true ∧ s.power.filter = none ∧ (s.socket 6).at_ + 520 * ms ≤ s.now)
    ∧ (Takes (buddyBase id) (message nodeGroup 8 (lossBody 6)) 8 ∧ (buddyBase id).code.latched.s ≠ some 6
      ∧ ((buddyBase id).socket 6).count.toNat ≤ fieldBE (message nodeGroup 8 (lossBody 6)).body 12 4)
    ∧ Takes (buddyBase id) (message nodeGroup 9 (List.replicate 16 0)) 9 ∧ (message nodeGroup 9 (List.replicate 16 0)).tag = (buddyBase id).ring.tag
    ∧ (let s := atTime (10 * sec) (buddyBase (fun m => { m with lost := true }))
       (s.socket 6).lost = true ∧ (s.socket 6).lossAt + 10 * sec ≤ s.now ∧ 6 ∈ s.mill.buddies)
    ∧ (Takes ringBase (message nodeGroup 8 (lossBody 5)) 8 ∧ ringBase.bySerial = false ∧ ringBase.code.latched.s = some 5)
    ∧ ((buddyBase id).power.filter.isNone = true
      ∧ ({ buddyBase id with power := { (buddyBase id).power with filter := some 0 } } : State).power.filter.isSome = true) :=
  ⟨by decide +kernel, takes_of (by decide +kernel), by decide +kernel, by decide +kernel,
   ⟨takes_of (by decide +kernel), by decide +kernel, by decide +kernel⟩, takes_of (by decide +kernel), by decide +kernel, by decide +kernel,
   ⟨takes_of (by decide +kernel), by decide +kernel, by decide +kernel⟩, by decide +kernel⟩

/-- A query with tag `tag` and no key. -/
def queryBody (tag : Nat) : List Byte := [1, 0] ++ bytesBE tag 2 ++ List.replicate 195 0

/-- Two serials differ from the node's own, whatever it is. -/
theorem other_serial : Config.deviceSerial + 1 ≠ Config.deviceSerial := by
  generalize Config.deviceSerial = x
  bv_omega

theorem witness_CensusAndTwins :
    (Takes (kept id) (message nodeGroup 7 (queryBody 1)) 7 ∧ badQuery (message nodeGroup 7 (queryBody 1)).body = false ∧ (kept id).speaks = true)
    ∧ (Takes (kept id) (message nodeGroup 7 (queryBody 0)) 7 ∧ badQuery (message nodeGroup 7 (queryBody 0)).body = true)
    ∧ (∃ s m, Takes s m 10 ∧ fieldBE m.body 0 6 = s.address.toNat ∧ m.serial ≠ Config.deviceSerial ∧ s.speaks = true ∧ m.serial ∉ s.mill.twins)
    ∧ (∃ (s : State) (c : CensusDue), s.mill.census = some c ∧ c.due ≤ s.now ∧ s.speaks = true) := by
  refine ⟨⟨takes_of (by decide +kernel), by decide +kernel, by decide +kernel⟩, ⟨takes_of (by decide +kernel), by decide +kernel⟩, ?_,
    ⟨{ ringBase with mill := { ringBase.mill with census := some { number := 0, tag := 1, cert := false, key := [], table := [], due := 0 } } }, _, rfl,
      by decide +kernel, by decide +kernel⟩⟩
  let body : List Byte := bytesBE ringBase.address.toNat 6 ++ List.replicate 10 0
  by_cases h : (message nodeGroup 10 body).serial = Config.deviceSerial
  · let m : Message := { message nodeGroup 10 body with bytes := (message nodeGroup 10 body).bytes.set 15 10 }
    have : m.serial = 10 := by decide +kernel
    have h9 : (message nodeGroup 10 body).serial = 9 := by decide +kernel
    exact ⟨ringBase, m, takes_of (by decide +kernel), by decide +kernel, by rw [this, ← h, h9]; decide, by decide +kernel, by decide +kernel⟩
  · exact ⟨ringBase, message nodeGroup 10 body, takes_of (by decide +kernel), by decide +kernel, h, by decide +kernel, by decide +kernel⟩

/-- A segment of transfer `n`, of `total` bytes, with bytes at `off`. -/
def segment (n total off : Nat) (bytes : List Byte) : Message :=
  message ringBase.address 3 (bytesBE n 2 ++ bytesBE total 4 ++ bytesBE off 4 ++ bytes)

/-- A BUNDLE of the keeper for another node. -/
theorem witness_MessagesTaken_elsewhere :
    let m := { segment 1 132 131 [1] with dst := 0x02ff00000002 }
    MessageRow .bundle 3 ∧ m.type = 3 ∧ m.headOk = true ∧ m.bodyOk = true ∧ (kept id).elsewhere m = true ∧ (kept id).fromKeeper m = true
      ∧ (kept id).consumes = true :=
  ⟨.bundle, by decide +kernel⟩

/-- `kept` with a transfer of 132 bytes open, whose first byte has come. -/
def transferOpen : State :=
  { kept id with ks := { (kept id).ks with
      area := [(0, 1)], transfer := some { number := 1, total := 132, lastAt := 0, source := 0x02ff00000001 } } }

theorem witness_BundleTransfers :
    (Takes (kept id) (segment 1 132 131 [1]) 3 ∧ (kept id).speaks = true ∧ (kept id).ks.erasing = false ∧ (kept id).ks.transfer = none
      ∧ (kept id).ks.area = [])
    ∧ (∃ x, Takes transferOpen (segment 2 132 0 [1]) 3 ∧ transferOpen.ks.transfer = some x ∧ x.number.toNat ≠ 2
      ∧ transferOpen.now < x.lastAt + 2 * sec ∧ x.lastAt + 2 * sec ≤ (atTime (2 * sec) transferOpen).now)
    ∧ (∃ x, Takes transferOpen (segment 1 132 131 [1, 2]) 3 ∧ transferOpen.ks.transfer = some x ∧ x.total < 131 + 2)
    ∧ (Takes transferOpen (segment 1 132 0 [2]) 3 ∧ ∃ c, transferOpen.ks.area.find? (fun e => decide (e.1 = 0 + 0)) = some c ∧ c.2 ≠ 2)
    ∧ (let b : List Byte := [0, 0, 0, 0, 0, 5] ++ List.replicate 126 0
       Takes (kept id) (segment 1 132 0 b) 3 ∧ bdKind b = some .restart ∧ b.length = 132)
    ∧ ({ kept id with ks := { (kept id).ks with erasing := true } } : State).ks.erasing = true :=
  ⟨⟨takes_of (by decide +kernel), by decide +kernel, by decide +kernel, by decide +kernel, by decide +kernel⟩,
   ⟨_, takes_of (by decide +kernel), rfl, by decide +kernel, by decide +kernel, by decide +kernel⟩,
   ⟨_, takes_of (by decide +kernel), rfl, by decide +kernel⟩, ⟨takes_of (by decide +kernel), _, rfl, by decide +kernel⟩,
   ⟨takes_of (by decide +kernel), by decide +kernel, by decide +kernel⟩, rfl⟩

theorem witness_StagingAndRestart :
    (∃ (s : State) (x : Staging), s.power.phase = .run ∧ s.lock.staging = [x] ∧ x.kind ≠ .restart ∧ s.ks.erasing = true ∧ KsRegion.records ∈ s.ks.eraseSector)
    ∧ Takes (kept id) (message ringBase.address 11 []) 11 ∧ bdKind (message ringBase.address 11 []).body ≠ some .restart :=
  ⟨⟨{ ringBase with
      lock := { ringBase.lock with staging := [{ kind := .patch, tenant := 0, slotB := true, bundle := [], transfer := 1, source := 0 }] }
      ks := { ringBase.ks with erasing := true, eraseSector := [.records] } }, _, by decide +kernel, rfl, by decide, rfl, by decide +kernel⟩,
   takes_of (by decide +kernel), by decide +kernel⟩

/-- A ledger entry that waits. -/
def entry : FaultEntry :=
  { number := 1, time := 0, cls := 1, unlocked := true, nested := false, escalated := false, code := 0x40, ctx := none, unit := none, object := 0,
    detail := 1, at_ := 0 }

theorem witness_FaultLedger :
    (let s : State := { base with faults := { base.faults with stack := [{ code := 0x30, cls := 2, ctx := 0, preempted := false }] } }
     s.power.phase = .run ∧ s.faults.stack = [{ code := 0x30, cls := 2, ctx := 0, preempted := false }] ∧ s.faults.stack.length < 4)
    ∧ (let s : State := atTime (10 * sec) { base with faults := { base.faults with counted := [(0x40, 15, 1)] } }
       s.faults.interval + 10 * sec ≤ s.now ∧ s.faults.counted = [(0x40, 15, 1)] ∧ (0x40 : Byte).toNat ∈ countedKinds
         ∧ s.faults.waiting.length < 64)
    ∧ (let s : State := { base with faults := { base.faults with waiting := List.replicate 15 entry } }
       s.faults.waiting.length = 15)
    ∧ (let s : State := atTime (10 * sec) { base with faults := { base.faults with waiting := [entry] } }
       s.faults.waiting = [entry] ∧ entry.at_ + 10 * sec ≤ s.now)
    ∧ (let s : State := { base with faults := { base.faults with
         stack := List.replicate 4 { code := 0x50, cls := 3, ctx := 0, preempted := false } } }
       4 ≤ s.faults.stack.length ∧ s.power.phase = .run ∧ s.faults.waiting.length < 64) := by
  decide +kernel

/-! ### Witnesses: further clauses -/

/-- A major opcode 00h and a code FFh in slot A. -/
theorem witness_CausesOfShortPairs_undefined : undefinedWord 0 = true ∧ undefinedWord ((pairWord 0xff 0 false).extractLsb' 0 18) = true := by decide +kernel

/-- The response to a drained store has not come. -/
theorem witness_SystemOps_unacked : (let s := (netState (fun n => { n with
         tags := [{ tagOf false none with req := storeRequest 0 0x800, write := true, own := true }] }))
       Issues s 0 s ∧ OpenPlace s 0 ∧ (s.ctx 0).spec = none ∧ ((s.drainUnit 0).unacked 0 = true)) :=
  ⟨issues_of (by decide +kernel), open_of (by decide +kernel) (by decide +kernel), rfl, by decide +kernel⟩

def busWaits (r : Option FillReply) : State :=
  (withStack [0x1a8c]).modUnit 0 (fun u => { u with fills := [{
    ctx := 0, pc := 0x10000, time := 0, cnt := 0, addr := 0x1a8c, block := 0, tag := 0, keep := true, reply := r }] })
/-- A register transaction with a word, with an ERR, and with no response yet. -/
theorem witness_RegisterAccess_bus : base.busOpen 0 0x1a8c = true
    ∧ (∃ f, ((busWaits (some (.units [(5, false)]))).modArch 0 (fun x => { x with ds := [] })).fillOf 0 false ((0x1a8c#13).zeroExtend 18) = some f
        ∧ f.reply = some (.units [(5, false)]))
    ∧ (∃ f, (busWaits (some (.err 1))).fillOf 0 false ((0x1a8c#13).zeroExtend 18) = some f ∧ f.reply = some (.err 1))
    ∧ (∃ f, (busWaits none).fillOf 0 false ((0x1a8c#13).zeroExtend 18) = some f ∧ f.reply = none) :=
  ⟨by decide +kernel, ⟨_, rfl, rfl⟩, ⟨_, rfl, rfl⟩, ⟨_, rfl, rfl⟩⟩

/-- A cause with data, and pending causes that CXBEN enables and does not. -/
theorem witness_BellEntries_pending : (syncCause 1 0).data = some 0 ∧
    (let c := (base.modCtx 0 (fun c => { c with ben := 0x7f, pend := [{ code := 0x26, qual := 0, slot := 0, data := none, ms := false }] })).ctx 0
     c.pend.filter (fun x => c.enables x.code) = c.pend ∧ c.pend ≠ []) ∧
    (let c := (base.modCtx 0 (fun c => { c with ben := 0, pend := [{ code := 0x26, qual := 0, slot := 0, data := none, ms := false }] })).ctx 0
     c.pend.filter (fun x => c.enables x.code) = []) := by decide +kernel

/-- A cause held by a right speculation, an asynchronous cause in a speculation, and a stop over a stalled shift. -/
theorem witness_OpEndsAndSpeculation_held : (∃ sp r d, ((speculates (fun x => { x with taken := false, held := some (syncCause 1 0) })).ctx 0).spec = some sp ∧ sp.held = some r
      ∧ r.data = some d ∧ ((speculates id).ctx 0).shadow = none ∧ ((speculates id).ctx 0).inBell = false)
    ∧ (let s := (speculates id).modCtx 0 (fun c => { c with ben := 0x7f })
       ∃ sp, (s.ctx 0).spec = some sp ∧ (s.ctx 0).live = true ∧ s.power.phase = .run ∧ (s.ctx 0).enables 0x26 = true ∧ (s.ctx 0).inBell = false)
    ∧ (let o : StrandOp := { copyOp with shift := true, stall := .outlet }
       let s : State := { opRuns (fun _ => o) with time := { base.time with mono := 130 }, power := { base.power with phase := .stopping } }
       (s.ctx 0).sop = some o ∧ s.power.phase = .stopping ∧ s.akCycles (s.now - o.stallAt) = 65) :=
  ⟨⟨_, _, _, rfl, rfl, rfl, rfl, rfl⟩, ⟨_, rfl, by decide +kernel⟩, by decide +kernel⟩

/-- Parking with empty queues and with a packet queued, and a bank that has waked for 40 us. -/
theorem witness_HardwareEntries_parking : (let s := (withModes (fun m => { m with act := 0x10 })).modCtx 0 (fun c => { c with state := .idle })
       s.mayPark = true ∧ (∀ n, ((allUnits.foldl (fun s n => s.drainUnit n) s).hunit n).buffer = []) ∧ ∀ g, (allUnits.foldl (fun s n => s.drainUnit n) s).queueHolds g = false)
    ∧ (let s := (({ withModes (fun m => { m with act := 0x10 }) with net := { base.net with waits := [{ requestPacket cmdRd (request 0 0x800) [] false false with stage := .queued }] } } : State)).modCtx 0 (fun c => { c with state := .idle })
       s.mayPark = true ∧ (allUnits.foldl (fun s n => s.drainUnit n) s).queueHolds 0 = true)
    ∧ (let s := atTime 40000 (base.modBank 3 (fun b => { b with state := .waking }))
       (s.bank 3).state = .waking ∧ (s.bank 3).wakeAt + 40000 ≤ s.now) := by decide +kernel

/-- An absent finding before another. -/
theorem witness_OutboxAndLedger_absent : (let s : State := atTime (5 * ms) { base with
         ks := { base.ks with ledger := [{ tenant := 0, body := [], absent := true }, { tenant := 0, body := [], absent := false }] }, find := { base.find with verdictAt := some 0 },
         modes := { base.modes with replay := true } }
       s.ks.ledger = { tenant := 0, body := [], absent := true } :: [{ tenant := 0, body := [], absent := false }] ∧ s.speaks = true ∧ s.modes.replay = true) := by decide +kernel

/-- A lane frame of the sample at which SI changes, and the last before it. -/
theorem witness_LaneFrames_jump : (let s : State := { base with ct := { base.ct with lanes := base.ct.lanes.set 2 { LaneState.fresh with jump := some (0, 7) } } }
      s.ct.lanes[(2 : Fin 3)].jump = some (0, 7) ∧ ¬ s.ct.lanes[(2 : Fin 3)].si < 0)
    ∧ (let s : State := { base with ct := { base.ct with lanes := base.ct.lanes.set 2 { LaneState.fresh with jump := some (40, 7) } } }
      s.ct.lanes[(2 : Fin 3)].jump = some (40, 7) ∧ s.ct.lanes[(2 : Fin 3)].si < 40) := by decide +kernel

/-- A range claimed during a burst, and an axis under drive. -/
theorem witness_LanesRangesAndSelfTest_burst : (let s := (base.modChan 11 (fun c => { c with claims := c.claims.set 0 3 })).modCtx 0 (fun c => { c with cap := { c.cap with burst := true } })
      s.bursting = true ∧ (s.chan 11).wanted ≠ (s.chan 11).rng)
    ∧ ({ base with ct := { base.ct with axis := some 11 } } : State).ct.axis = some 11 := by decide +kernel

/-- A parked region whose tree runs. -/
theorem witness_TreeEdges_parked : (let s := (regionRuns (fun x => { x with state := .parked }))
    (s.region 15).state ≠ .running ∧ s.treeRuns 15 = true) := by decide +kernel

/-- A step of ring time that waits for the frame boundary. -/
theorem witness_SyncsAndLock_step : ({ base with time := { base.time with step := some (-5) } } : State).time.step = some (-5) := rfl

/-- A GOING before the first house verdict. -/
theorem witness_Buddies_early : Takes ({ kept id with find := { ringBase.find with verdictAt := none } }) (message nodeGroup 9 (List.replicate 16 0)) 9 := takes_of (by decide +kernel)

/-- An erase of the finding ledger, and a bundle that fits its slot. -/
theorem witness_StagingAndRestart_erase : (let s : State := { ringBase with ks := { ringBase.ks with eraseSector := [.findingLedger] } }
     KsRegion.findingLedger ∈ s.ks.eraseSector ∧ ([] : List Byte).length ≤ 244 * (Kind.patch.pages - 1)) := by decide +kernel

/-- A fault whose flush is under way, of class C2 and of class C3. -/
theorem witness_FaultLedger_flush : (let s : State := { base with faults := { base.faults with stack := [{ code := 0x30, cls := 2, ctx := 0, preempted := false }] }, net := { base.net with flushing := base.net.flushing.set 0 1 } }
    s.power.phase = .run ∧ (s.net.flushing[(0 : NiId)]).getLsbD 0 = true) ∧
   (let s : State := { base with faults := { base.faults with stack := [{ code := 0x50, cls := 3, ctx := 0, preempted := false }] }, net := { base.net with flushing := base.net.flushing.set 23 2 } }
    s.net.flushing[(23 : NiId)] ≠ 0) := by decide +kernel

/-! ### Well-formedness: a command that each check refuses, and its neighbour that passes -/

def longFrame (n : Nat) : FrameIn := frameFor 0 etMillrace (List.replicate n 0)
def longMessage (n : Nat) : Message := { src := 0, dst := 0, bytes := List.replicate n 0 }

theorem test_wf_interval : (Instr.dvfsInterval 2 1).wf = false ∧ (Instr.dvfsInterval 1 1).wf = true := by decide

theorem test_wf_frames : (Instr.hsrFrame .a (longFrame 1505)).wf = false ∧ (Instr.hsrFrame .a (longFrame 1504)).wf = true
    ∧ (Instr.supervisionFrame .a (longFrame 1505)).wf = false ∧ (Instr.followUp .a (longFrame 1505)).wf = false
    ∧ (Instr.delayReq .a (longFrame 1505) 0).wf = false := by decide +kernel

theorem test_wf_messages : (Instr.pulse (longMessage 1505)).wf = false ∧ (Instr.pulse (longMessage 1504)).wf = true
    ∧ (Instr.loss (longMessage 1505)).wf = false ∧ (Instr.going (longMessage 1505)).wf = false ∧ (Instr.twin (longMessage 1505)).wf = false
    ∧ (Instr.census (longMessage 1505)).wf = false ∧ (Instr.roll (longMessage 1505)).wf = false ∧ (Instr.timeAux (longMessage 1505)).wf = false
    ∧ (Instr.bundle (longMessage 1505)).wf = false ∧ (Instr.bundleTransferTimeout (longMessage 1505)).wf = false
    ∧ (Instr.restart (longMessage 1505)).wf = false := by decide +kernel

theorem test_wf_packets : (Instr.wr (request 1 0) [0] false).wf = false ∧ (Instr.wr (request 0 1) [0] false).wf = false
    ∧ (Instr.wr (request 0 0) [0] false).wf = true ∧ (Instr.wrp (request 1 0) [0] false).wf = false ∧ (Instr.wrw (request 1 0) 0 false).wf = false
    ∧ (Instr.regrd (request 1 0)).wf = false ∧ (Instr.regwr (request 1 0) 0 false).wf = false ∧ (Instr.bstr (request 1 0) [0]).wf = false := by
  decide

theorem test_wf_start : (Instr.powerOn { startInput with took := 1200 * ms + 1 }).wf = false ∧ (Instr.powerOn { startInput with took := 1200 * ms }).wf = true
    ∧ (Instr.watchdogExpiry { startInput with took := 400 * ms - 1 }).wf = false ∧ (Instr.stopComplete { startInput with took := 400 * ms }).wf = true := by
  decide +kernel

/-- Major opcodes 00h, 0Bh and 26h, and slot A codes FFh and 5Bh. -/
theorem test_wf_undefined : (Instr.nop 0 (.undefined 0) false).wf = true ∧ (Instr.nop 0 (.undefined (longWord 0x0b 0 |>.extractLsb' 0 18)) false).wf = false
    ∧ (Instr.nop 0 (.undefined (longWord 0x26 0 |>.extractLsb' 0 18)) false).wf = true
    ∧ (Instr.nop 0 (.undefined ((pairWord 0xff 0 false).extractLsb' 0 18)) false).wf = true
    ∧ (Instr.nop 0 (.undefined ((pairWord 0x5b 0 false).extractLsb' 0 18)) false).wf = false := by decide +kernel

theorem test_wf_damage : (Instr.rd { request 0 0 with damage := [{ router := 0, unit := 1, kind := .double }] }).wf = false
    ∧ (Instr.rdi { request 0 0 with damage := [{ router := 0, unit := 1, kind := .single }] }).wf = false
    ∧ (Instr.ack 0 0 [{ router := 0, unit := 1, kind := .single }]).wf = false ∧ (Instr.err 0 0 [{ router := 0, unit := 1, kind := .single }]).wf = false
    ∧ (Instr.wr { request 0 0 with damage := [{ router := 0, unit := 2, kind := .double }] } [0] false).wf = false
    ∧ (Instr.wr { request 0 0 with damage := [{ router := 0, unit := 1, kind := .double }] } [0] false).wf = true := by decide

/-! ### Steps, against the spec's tables and hand calculation -/

/-- The state that a command leaves. -/
def after (o : Out) : State :=
  match o with
  | .next s => s
  | _ => State.reset

/-- The data stack that a command of context 0 leaves. -/
def stackOf (o : Out) : List Word := ((after o).ctx 0).arch.ds

theorem test_no_row_has_bits : decodeTableWord 16 0 = none ∧ State.reset.withFetchWord 16 0 = State.reset := ⟨rfl, rfl⟩

theorem test_step_takes_front : (after (step { State.reset with pending := [.ledgerReplay, .runTokenLapse] })).pending = [.runTokenLapse] := by
  decide +kernel

theorem test_tick_without_power : (after (step State.reset)).time.mono = 0 := by decide +kernel
theorem test_tick_with_power : (after (step base)).time.mono = 8 := by decide +kernel

theorem test_add_wraps : stackOf (exec (.add 0 0 false) (withStack [1, 0xfffffffff])) = [0] := by decide +kernel
theorem test_sub_order : stackOf (exec (.sub 0 0 false) (withStack [3, 5])) = [2] := by decide +kernel
theorem test_rot : stackOf (exec (.rot 0 0 false) (withStack [3, 2, 1])) = [1, 3, 2] := by decide +kernel
theorem test_tuck : stackOf (exec (.tuck 0 0 false) (withStack [2, 1])) = [2, 1, 2] := by decide +kernel
theorem test_pick_deepest : stackOf (exec (.pick 0 0 false) (withStack [1, 7, 9])) = [9, 7, 9] := by decide +kernel
theorem test_mul_signed : stackOf (exec (.mul 0 0 false) (withStack [0x3ffff, 2])) = [0xffffffffe] := by decide +kernel
theorem test_mulu_unsigned : stackOf (exec (.mulu 0 0 false) (withStack [0x3ffff, 2])) = [0x7fffe] := by decide +kernel
theorem test_abs_most_negative : stackOf (exec (.abs 0 0 false) (withStack [0x800000000])) = [0x800000000] := by decide +kernel
theorem test_min_signed : stackOf (exec (.min 0 0 false) (withStack [0xfffffffff, 1])) = [0xfffffffff] := by decide +kernel
theorem test_ult_unsigned : stackOf (exec (.ult 0 0 false) (withStack [0xfffffffff, 1])) = [1] := by decide +kernel
theorem test_shl_by_36 : stackOf (exec (.shl 0 0 false) (withStack [36, 1])) = [0] := by decide +kernel
theorem test_asr_by_63 : stackOf (exec (.asr 0 0 false) (withStack [63, 0x800000000])) = [0xfffffffff] := by decide +kernel
theorem test_rol_by_37 : stackOf (exec (.rol 0 0 false) (withStack [37, 0x800000001])) = [3] := by decide +kernel
theorem test_shift_ignores_high_bits : stackOf (exec (.shr 0 0 false) (withStack [0x41, 4])) = [2] := by decide +kernel
theorem test_brev : stackOf (exec (.brev 0 0 false) (withStack [4, 0b0001])) = [0b1000] := by decide +kernel
theorem test_exp_of_zero : expWord 0 = 35 ∧ expWord 0xfffffffff = 35 ∧ expWord 1 = 34 := by decide +kernel

/-- R223's own example: with k = 18, 2^17 reads 1 half up and 0 convergent, and 3·2^17 reads 2 under both. -/
theorem test_rdre_rounds : stackOf (exec (.rdre 0 0 false) (withArch (fun a => { a with rsh := 18, acr := 0x20000 }))) = [1]
    ∧ stackOf (exec (.rdre 0 0 false) (withArch (fun a => { a with rsh := 18, acr := 0x20000, rconv := true }))) = [0]
    ∧ stackOf (exec (.rdre 0 0 false) (withArch (fun a => { a with rsh := 18, acr := 0x60000, rconv := true }))) = [2] := by decide +kernel

/-- CRC-8 with polynomial 07h of the byte 01h, worked by hand. -/
theorem test_crc_step : stackOf (exec (.crc 0 0 false) (withArch (fun a => { a with crcw := 8, crcp := 7, ds := [1, 0] }))) = [7] := by
  decide +kernel

/-- DROP|DUP is encoded as 20402h (the spec's example under Table HW-1). -/
theorem test_pair_word : pairWord 2 1 false = 0x20402 := by decide +kernel

/-- The pair acts in the order A, B. -/
theorem test_pair_order : stackOf (exec (.drop 0 0x13 false) (withStack [9, 1])) = [2] := by decide +kernel

/-- MAC of (2, 3) and (5, 7): 2·5 and 3·7. -/
theorem test_mac : (let s := base.modCtx 0 (fun c => { c with xram := [(0, 2 <<< 18 ||| 3)], yram := [(0, 5 <<< 18 ||| 7)] })
    let a := ((after (exec (.mac 0 0 false none) s)).ctx 0).arch
    (a.acr, a.aci)) = (10, 21) := by decide +kernel

/-- CMAC of 2 + 3i and 5 + 7i is -11 + 29i. -/
theorem test_cmac : (let s := base.modCtx 0 (fun c => { c with xram := [(0, 2 <<< 18 ||| 3)], yram := [(0, 5 <<< 18 ||| 7)] })
    let a := ((after (exec (.cmac 0 0 false) s)).ctx 0).arch
    (a.acr.toInt, a.aci.toInt)) = (-11, 29) := by decide +kernel

theorem test_pairdep_code : ((after (exec (.dup 0 0x13 false none) (withStack [1]))).ctx 0).bcause.extractLsb' 0 6 = 2 := by decide +kernel
theorem test_underflow_code : ((after (exec (.drop 0 0 false) base)).ctx 0).bcause.extractLsb' 0 6 = 3 := by decide +kernel
theorem test_und_keeps_stack : stackOf (exec (.drop 0 0xff false) (withStack [5])) = [5] := by decide +kernel

theorem test_lit_sign : stackOf (exec (.lit 0 0x7ff) base) = [0xfffffffff] := by decide +kernel
theorem test_litu_zero : stackOf (exec (.litu 0 0x7ff) base) = [0x7ff] := by decide +kernel
theorem test_lits_appends : stackOf (exec (.lits 0 0x001) (withStack [1])) = [0x801] := by decide +kernel

theorem test_ldx_last : stackOf (exec (.ldx 0 0x7ff) (base.modCtx 0 (fun c => { c with xram := [(0x7ff, 5)] }))) = [5] := by decide +kernel
theorem test_stx_zero_unlists : ((after (exec (.stx 0 3) ((withStack [0]).modCtx 0 (fun c => { c with xram := [(3, 5)] })))).ctx 0).xram = [] := by
  decide +kernel
theorem test_st_joins_buffer : ((after (exec (.st 0 1) ((withStack [6]).modArch 0 (fun a => { a with bk := 0x10 })))).hunit 0).buffer.map (fun e => (e.addr, e.val))
    = [(0x8001, 6)] := by decide +kernel

theorem test_br_target : ((after (exec (.br 0 0x7fe) base)).ctx 0).branch.map (fun b => (b.target, b.taken)) = some (0x10000, true) := by decide +kernel
theorem test_call_return : ((after (exec (.call 0 0) base)).ctx 0).arch.rs = [0x10002] := by decide +kernel
theorem test_loop_end_repeats : ((after (exec (.nop 0 (.op 0) false) atLoop)).ctx 0).pc = 0x10000
    ∧ ((after (exec (.nop 0 (.op 0) false) atLoop)).ctx 0).arch.lc[0] = 1 := by decide +kernel
theorem test_wait_takes_event : stackOf (exec (.wait 0 0x002) (withStack [0])) = [2] := by decide +kernel
theorem test_wait_releases_unit : ((after (exec (.wait 0 0x004) (withStack [0]))).hunit 0).ctx = none := by decide +kernel

/-- CXSTAT of a running context of unit 0 with one item: state 2 in [2:0], data depth 0 after the pop. -/
theorem test_hrd_own_state : stackOf (exec (.hrd 0 0) (withStack [0])) = [2] := by decide +kernel
theorem test_hrd_outside_map : ((after (exec (.hrd 0 0) (withStack [0x1fff]))).ctx 0).bcause.extractLsb' 0 6 = 0x0c := by decide +kernel
theorem test_hwr_other_context : ((after (exec (.hwr 0 0) (withStack [0x41, 1]))).ctx 0).bcause.extractLsb' 0 6 = 0x0d := by decide +kernel
/-- The Weir class block spans 1600h to 177Fh (21). -/
theorem test_index_of_last_class : decodeIndex 0x177f = some ⟨.weirClass, 15, 23⟩ := by decide +kernel

/-- ADD costs 26 steps at n = 24 (09). -/
theorem test_add_steps : (romShape 0x010 ((Vector.replicate 8 0).set 7 24)).steps = some 26 := by decide +kernel
/-- 1 + 3 in PE 0 on fields of two planes carries out. -/
theorem test_add_field : addField [1, 0] [1, 1] 0 = ([0, 0], 1) := by decide +kernel

/-- Table SK-4 and SK-5: 178 kΩ is s = 48, an open reverse branch p = 63, and an open zener branch z = 101b. -/
theorem test_socket_code :
    (let o := decodeCode socket48
     (o.s, o.p, o.z, o.fault)) = (some 48, 63, 5, none) := by decide +kernel
/-- 109.2 kΩ to 110.4 kΩ is a gap: CODE-FAULT on CF. -/
theorem test_socket_gap : (decodeCode (reading 110000000 1000000 1000000)).fault = some .cf := by
  decide +kernel

theorem test_power_on_runs : (after (exec (.powerOn startInput) State.reset)).power.phase = .run := by decide +kernel
theorem test_token_lapse_releases_hale :
    (after (exec .runTokenLapse (withPower (fun p => { p with hale := true, token := true })))).power.hale = false := by decide +kernel
theorem test_die_at_125 : (after (exec (.dieTemperatureReading 16000) base)).power.stopCause = .thermal := by decide +kernel
theorem test_upset_route : (after (step { base with pending := [], faults := { base.faults with upsets := [(8, .route 2 9)] } })).power.stopCause = .c4 := by
  decide +kernel
theorem test_rail_is_c4 : (after (exec (.railOutOfBand 4) { base with gauge := { base.gauge with watching := true } })).power.stopCause = .c4 := by
  decide +kernel

theorem test_lane_down_at_sixteen :
    ((after (exec (.laneFrame 0 false goodFrame)
      { base with ct := { base.ct with lanes := base.ct.lanes.set 0 { LaneState.fresh with run := 15 } } })).ct.lanes[(0 : Fin 3)]).up = false := by
  decide +kernel
theorem test_tap_counts : ((after (exec (.tapEvent 15) (regionRuns id))).region 15).taps = 1 := by decide +kernel
theorem test_post_reaches_pool :
    (after (exec (.post 15) (regionRuns (fun x => { x with paddr := 0x8fff })))).peek { eddy := false, word := 0xfff } = 0 := by decide +kernel

theorem test_wrw_pool : (after (exec (.wrw (storeRequest 0 0xfff) 77 false) (netState id))).pool = [(0xfff, 77)] := by decide +kernel
theorem test_wrw_poison : (after (exec (.wrw (storeRequest 0 0xfff) 77 true) (netState id))).pool = [] := by decide +kernel
theorem test_late_response : ((after (exec (.ack 0 63 []) (tagged true (some .ack)))).net.counts[(0 : Fin 24)]).late = 1 := by decide +kernel
theorem test_load_times_out : ((after (exec (.niTimeout 0 63 false) (atTime 10240 (tagged false none)))).ctx 0).sync.map (·.code) = [0x0b] := by
  decide +kernel

theorem test_frame_relayed : ((after (exec (.hsrFrame .a (frameFor nodeGroup etMillrace [])) ringBase)).port .b).qRelay.length = 1 := by decide +kernel
theorem test_frame_duplicate :
    ((after (exec (.hsrFrame .a (frameFor nodeGroup etMillrace []))
      (atTime 1 { ringBase with ring := { ringBase.ring with known := [(0x02ff00000001, 7, 0)] } }))).port .a).dup = 1 := by decide +kernel
theorem test_lock_after_16 :
    (after (exec (.sync .a 0x02ff00000001 3 1000 1200) (kept (fun p => { p with state := .acquiring, good := 15 })))).ptp.state = .locked := by
  decide +kernel
theorem test_roll_speed : (after (exec (.roll (message nodeGroup 6 rollBody)) (kept id))).mill.speed = 9 := by decide +kernel
theorem test_silence_enters_vigil : (after (exec (.buddySilence 6) (atTime (520 * ms) (buddyBase id)))).modes.hw.getLsbD mVigil = true := by
  decide +kernel
theorem test_bad_query_counts : (after (exec (.census (message nodeGroup 7 (queryBody 0))) (kept id))).mill.bad = 1 := by decide +kernel
theorem test_segment_kept : (after (exec (.bundle (segment 1 132 131 [7])) (kept id))).ks.area = [(131, 7)] := by decide +kernel
theorem test_restart_format : (after (exec (.restart (message ringBase.address 11 [])) (kept id))).lock.refused.map (·.code) = some 1 := by
  decide +kernel
theorem test_fault_page : (after (exec .faultLedgerPageWrite
    { base with faults := { base.faults with waiting := List.replicate 15 entry } })).ks.faultPages.map (·.length) = [15] := by decide +kernel
theorem test_mode_in_a_shadow_empties_it :
    (let s := (shadowed none).modCtx 0 (fun c => { c with shadow := some { left := 3, mask := 0x08, pending := none } })
     ((after (execMode 0 0 (s.modArch 0 (fun a => { a with ds := [1] })))).ctx 0).shadow)
      = some { left := 0, mask := 0x08, pending := none } := by decide +kernel

end Sys2Proof.Tests
end

section
/-! SUPPORT. The shifts and BREV of R187: what each makes of a word and its count, and the pair that holds one in slot A. -/

namespace Sys2Proof.Machine

/-! ### Words -/

/-- An arithmetic shift by more than the width gives what a shift by the width gives: copies of the sign bit. -/
theorem sshiftRight_min {w : Nat} (x : BitVec w) (k : Nat) : x.sshiftRight (Nat.min k w) = x.sshiftRight k := by
  rcases Nat.le_total k w with h | h
  · rw [show Nat.min k w = k from Nat.min_eq_left h]
  · have hm : Nat.min k w = w := Nat.min_eq_right h
    ext i hi
    have hw : ¬w + i < w := by omega
    have hk : ¬k + i < w := by omega
    simp [hm, BitVec.getElem_sshiftRight, hw, hk]

/-- R187: ASR divides by a power of two, rounding down, and so a count of 36 or more gives 36 copies of the sign bit. -/
theorem asrWord_eq_div (x n : Word) : asrWord x n = BitVec.ofInt 36 (x.toInt / 2 ^ (n.toNat % 64)) := by
  rw [asrWord, shiftCount, sshiftRight_min, BitVec.sshiftRight, Int.shiftRight_eq_div_pow, Nat.cast_pow, Nat.cast_ofNat]

/-- The first `m` bits that BREV takes, over a width of `w`, fill the places from `w - m` up to `w - 1` in reverse. -/
theorem getLsbD_brevFold (x : Word) {w m : Nat} (hm : m ≤ w) (hw : w ≤ 36) (j : Nat) :
    ((List.range m).foldl (fun (a : Word) i => if x.getLsbD i then a ||| (1#36 <<< (w - 1 - i)) else a) 0).getLsbD j
      = (decide (w - m ≤ j ∧ j < w) && x.getLsbD (w - 1 - j)) := by
  induction m with
  | zero =>
    have hno : ¬(w ≤ j ∧ j < w) := by omega
    simp [hno]
  | succ m ih =>
    rw [List.range_succ, List.foldl_append, List.foldl_cons, List.foldl_nil]
    have hbit (a : Word) : (if x.getLsbD m then a ||| (1#36 <<< (w - 1 - m)) else a).getLsbD j
        = (a.getLsbD j || (decide (j = w - 1 - m) && x.getLsbD m)) := by
      have hj : (1#36 <<< (w - 1 - m)).getLsbD j = decide (j = w - 1 - m) := by
        have hin : w - 1 - m < 36 := by omega
        simp [← BitVec.twoPow_eq, BitVec.getLsbD_twoPow, hin, eq_comm]
      cases x.getLsbD m <;> simp [hj]
    rw [hbit, ih (by omega)]
    rcases eq_or_ne j (w - 1 - m) with hj | hj
    · have hback : w - 1 - j = m := by omega
      have hold : decide (w - m ≤ j ∧ j < w) = false := decide_eq_false (by omega)
      have hnew : decide (w - (m + 1) ≤ j ∧ j < w) = true := decide_eq_true (by omega)
      rw [hold, hnew, hback, decide_eq_true hj, Bool.false_and, Bool.false_or]
    · have hsame : (w - (m + 1) ≤ j ∧ j < w) ↔ (w - m ≤ j ∧ j < w) := by omega
      rw [decide_eq_decide.2 hsame, decide_eq_false hj, Bool.false_and, Bool.or_false]

/-- R187: BREV reverses the low bits over its width. -/
theorem brevWord_eq_lowReversed (x n : Word) : brevWord x n = lowReversed x (Nat.min (n.toNat % 64) 36) := by
  have hw : Nat.min (n.toNat % 64) 36 ≤ 36 := Nat.min_le_right _ _
  simp only [brevWord, shiftCount]
  generalize Nat.min (n.toNat % 64) 36 = w at hw
  apply BitVec.eq_of_getLsbD_eq
  intro j hj
  rw [getLsbD_brevFold x (Nat.le_refl w) hw, lowReversed, BitVec.getLsbD_ushiftRight, BitVec.getLsbD_reverse,
    BitVec.getMsbD_eq_getLsbD]
  have hplace : 36 - w + j < 36 ↔ w - w ≤ j ∧ j < w := by omega
  have hfrom : 36 - 1 - (36 - w + j) = w - 1 - j := by omega
  rw [hfrom, decide_eq_decide.2 hplace]

/-! ### Pairs -/

/-- The data stack of a pair without a cause holds what the op in slot A takes (R177). -/
theorem PairOk.takes_le {s : State} {t : Ctx} {ca cb : BitVec 8} {i : ShortInfo} (h : PairOk s t ca cb)
    (hi : shortInfo ca.toNat = some i) : i.takes ≤ (s.ctx t).arch.ds.length := by
  by_contra hlt
  simp only [PairOk, Arch.pairCheck, Arch.stackCause, hi, if_pos (Nat.lt_of_not_le hlt)] at h
  split at h
  · cases h
  · split at h
    · cases h
    · split at h <;> cases h

/-- On a stack of two items or more an op of two words is its row of the table. -/
theorem Arch.bin_eq_binary {a : Arch} (f : Word → Word → Word) (h : 2 ≤ a.ds.length) :
    a.bin f = { a with ds := binary f a.ds } := by
  rw [Arch.bin]
  match hd : a.ds, h with
  | _ :: _ :: _, _ => rfl

/-- A pair whose op in slot A takes two words and leaves one. -/
theorem State.pair_binary {s s1 s3 : State} {t : Ctx} {ca b : BitVec 8} {bar : Bool} {i : ShortInfo}
    {f : Word → Word → Word} (hi : Issues s t s1) (hc : PairOk s1 t ca b) (hs : shortInfo ca.toNat = some i) (h2 : i.takes = 2)
    (hb : shortOp b.toNat (s1.modArch t (fun a => { a with ds := binary f a.ds })) t = .ok s3 ()) :
    s.pair t ca (pureOp (fun a => a.bin f)) b bar = s3.seqAfter s1 t bar := by
  have hd : 2 ≤ (s1.ctx t).arch.ds.length := h2 ▸ hc.takes_le hs
  have ha : pureOp (fun a => a.bin f) s1 t = .ok (s1.modArch t (fun a => { a with ds := binary f a.ds })) () := by
    rw [pureOp, State.modArch_congr (g := fun a => { a with ds := binary f a.ds }) (Arch.bin_eq_binary f hd)]
  exact State.pair_ok hi hc ha hb

/-! ### The rows of R187 -/

/-- A shift or BREV takes two words. -/
theorem ShiftRow.takes_two {cmd : Ctx → BitVec 8 → Bool → Instr} {code : BitVec 8} {act : List Word → List Word}
    (h : ShiftRow cmd code act) : ∃ i, shortInfo code.toNat = some i ∧ i.takes = 2 := by
  cases h <;> exact ⟨_, rfl, rfl⟩

/-- A shift or BREV is a pair with an op of two words in slot A, and that op is the row's. -/
theorem ShiftRow.exec_eq_pair {cmd : Ctx → BitVec 8 → Bool → Instr} {code : BitVec 8} {act : List Word → List Word}
    (h : ShiftRow cmd code act) :
    ∃ f, act = binary f
      ∧ ∀ t b bar s, exec (cmd t b bar) s = .next (s.pair t code (pureOp (fun a => a.bin f)) b bar) := by
  cases h with
  | shl => exact ⟨shlWord, rfl, fun _ _ _ _ => rfl⟩
  | shr => exact ⟨shrWord, rfl, fun _ _ _ _ => rfl⟩
  | asr => exact ⟨asrWord, congrArg binary (funext₂ asrWord_eq_div).symm, fun _ _ _ _ => rfl⟩
  | rol => exact ⟨rolWord, rfl, fun _ _ _ _ => rfl⟩
  | brev => exact ⟨brevWord, congrArg binary (funext₂ brevWord_eq_lowReversed).symm, fun _ _ _ _ => rfl⟩

/-- Settles O8: each row is a pair with an op of two words in slot A, whose value is the row's. -/
theorem shiftsAndBitReversal : Obligations.ShiftsAndBitReversal := by
  intro cmd code act hrow t b bar s s1 s3 hi hc hb
  obtain ⟨i, hs, h2⟩ := hrow.takes_two
  obtain ⟨f, rfl, hexec⟩ := hrow.exec_eq_pair
  rw [hexec, State.pair_binary hi hc hs h2 hb]

end Sys2Proof.Machine
end

section
/-! SUPPORT. LOOP, LEAVE and loop-end processing (R191, R192), a lemma for each thing they can do. -/

namespace Sys2Proof.Machine

/-! ### LOOP and LEAVE -/

/-- A pop of one item that is there. -/
theorem State.pops_one {s : State} {t : Ctx} {x : Word} {r : List Word} (word : Word) (f : State → List Word → Res Flow)
    (hd : (s.ctx t).arch.ds = x :: r) : s.pops t 1 word f = f (s.modArch t (fun a => { a with ds := r })) [x] := by
  simp [State.pops, hd]

/-- R194: LOOP 0 is undefined. -/
theorem State.loopBody_zero (s : State) (t : Ctx) :
    s.loopBody t 0 = .raise s (syncCause causeUnd (longWord 0x18 0)) := by
  simp [State.loopBody]

section
variable {s : State} {t : Ctx} {n : BitVec 11} {x : Word} {r : List Word} (hn : n ≠ 0) (hd : (s.ctx t).arch.ds = x :: r)
include hn hd

/-- LOOP with three levels open. -/
theorem State.loopBody_full (hl : 3 ≤ (s.ctx t).arch.levels) :
    s.loopBody t n = .raise (s.modArch t (fun a => { a with ds := r })) (syncCause causeLoopx (longWord 0x18 n)) := by
  rw [State.loopBody, if_neg hn, State.pops_one _ _ hd]
  simp [hl]

/-- LOOP with a count of 0 passes over its body. -/
theorem State.loopBody_skip (hl : (s.ctx t).arch.levels < 3) (hx : x = 0) :
    s.loopBody t n
      = .ok (s.modArch t (fun a => { a with ds := r })) (.jump ((s.ctx t).pc + 1 + n.zeroExtend 19)) := by
  have hl' : ¬3 ≤ (s.ctx t).arch.levels := by omega
  rw [State.loopBody, if_neg hn, State.pops_one _ _ hd]
  simp [hl', hx]

/-- LOOP with any other count opens a level. -/
theorem State.loopBody_open (hl : (s.ctx t).arch.levels < 3) (hx : x ≠ 0) :
    let c := s.ctx t
    s.loopBody t n
      = .ok (s.modArch t (fun a =>
          { a with
            ds := r, levels := a.levels + 1, lc := a.lc.set c.arch.levels x, ls := a.ls.set c.arch.levels (c.pc + 1),
            le := a.le.set c.arch.levels (c.pc + n.zeroExtend 19) })) (.jump (c.pc + 1)) := by
  have hl' : ¬3 ≤ (s.ctx t).arch.levels := by omega
  rw [State.loopBody, if_neg hn, State.pops_one _ _ hd]
  simp only [State.modArch_ctx, hl', List.getD_cons_zero, hx, if_false, State.modArch_modArch, Fin.ofNat, Nat.mod_eq_of_lt hl]
end

/-- LOOP is a transfer with the body of R191. -/
theorem exec_loop (t : Ctx) (n : BitVec 11) (s : State) :
    exec (.loop t n) s = .next (s.transferOp t 0x18 n (fun s => s.loopBody t n)) := rfl

/-- LEAVE with its zero field clear is a transfer that closes a level, or raises LOOPX where none is open (R192). -/
theorem exec_leave (t : Ctx) (s : State) :
    exec (.leave t 0) s = .next (s.transferOp t 0x19 0 (fun s =>
      if (s.ctx t).arch.levels = 0 then .raise s (syncCause causeLoopx (longWord 0x19 0))
      else .ok (s.modArch t (fun a => { a with levels := a.levels - 1 })) (.jump ((s.ctx t).pc + 1)))) := rfl

/-! ### Loop-end processing -/

/-- Loop-end processing acts only at LE of an open level. -/
theorem loopEnd_elsewhere (fuel : Nat) {a : Arch} {p : BitVec 19} (h : ¬(0 < a.levels ∧ a.le[a.level] = p)) :
    loopEnd fuel a p = (a, p + 1) := by
  cases fuel with
  | zero => rfl
  | succ fuel => simp only [loopEnd, if_neg h]

section
variable (fuel : Nat) {a : Arch} {p : BitVec 19} (hl : 0 < a.levels) (hp : a.le[a.level] = p)
include hl hp

/-- At LE a count other than 1 falls by one and execution goes to LS. -/
theorem loopEnd_repeats (hc : a.lc[a.level] ≠ 1) :
    loopEnd (fuel + 1) a p = ({ a with lc := a.lc.set a.level (a.lc[a.level] - 1) }, a.ls[a.level]) := by
  simp only [loopEnd, if_pos (And.intro hl hp), if_pos (sub_ne_zero.2 hc)]

/-- At LE a count of 1 closes the level, and the next level out follows. -/
theorem loopEnd_closes (hc : a.lc[a.level] = 1) :
    loopEnd (fuel + 1) a p = loopEnd fuel { a with lc := a.lc.set a.level 0, levels := a.levels - 1 } p := by
  simp [loopEnd, hl, hp, hc]
end

/-- Where loop-end processing acts (R192). -/
theorem Context.atLoopEnd_iff {c : Context} :
    c.atLoopEnd = true ↔ (0 < c.arch.levels ∧ c.arch.le[c.arch.level] = c.pc) ∧ c.loopfz = false := by
  simp only [Context.atLoopEnd, Bool.and_eq_true, decide_eq_true_eq, Bool.not_eq_true', eq_comm (a := c.pc)]
  tauto

/-- Under LOOPFZ the next address follows. -/
theorem Context.advance_loopfz {c : Context} (h : c.loopfz = true) : c.advance = { c with pc := c.pc + 1 } := by
  simp only [Context.advance, if_pos h]

/-- Without LOOPFZ loop-end processing gives the registers and the next address. -/
theorem Context.advance_loopEnd {c : Context} (h : c.loopfz = false) :
    c.advance = { c with arch := (loopEnd 3 c.arch c.pc).1, pc := (loopEnd 3 c.arch c.pc).2 } := by
  simp [Context.advance, h]

/-- Not at the end of a loop, the next address follows. -/
theorem Context.advance_elsewhere {c : Context} (h : c.atLoopEnd = false) : c.advance = { c with pc := c.pc + 1 } := by
  by_cases hz : c.loopfz = true
  · exact Context.advance_loopfz hz
  · have hz : c.loopfz = false := Bool.eq_false_iff.2 hz
    have hn : ¬(0 < c.arch.levels ∧ c.arch.le[c.arch.level] = c.pc) := fun hp =>
      Bool.eq_false_iff.1 h (Context.atLoopEnd_iff.2 ⟨hp, hz⟩)
    rw [Context.advance_loopEnd hz, loopEnd_elsewhere 3 hn]

/-- The transfer of a delay slot overrides loop-end processing. -/
theorem Context.sequel_taken {c : Context} {b : Branching} (hb : c.branch = some b) (ht : b.taken = true) :
    c.sequel = { c with pc := b.target, branch := none } := by
  simp only [Context.sequel, hb, if_pos ht]

/-- Outside a delay slot an instruction in sequence advances. -/
theorem Context.sequel_advance {c : Context} (hb : c.branch = none) : c.sequel = c.advance := by
  simp only [Context.sequel, hb]

/-- At the end of a loop loop-end processing gives the registers and the next address. -/
theorem Context.advance_atLoopEnd {c : Context} (h : c.atLoopEnd = true) :
    c.advance.pc = (loopEnd 3 c.arch c.pc).2 ∧ c.advance.arch = (loopEnd 3 c.arch c.pc).1 := by
  rw [Context.advance_loopEnd (Context.atLoopEnd_iff.1 h).2]
  exact ⟨rfl, rfl⟩

/-- R192: while the count is not zero, execution goes to LS. -/
theorem Context.advance_repeats {c : Context} (h : c.atLoopEnd = true) (hc : c.arch.lc[c.arch.level] ≠ 1) :
    c.advance.pc = c.arch.ls[c.arch.level]
      ∧ c.advance.arch = { c.arch with lc := c.arch.lc.set c.arch.level (c.arch.lc[c.arch.level] - 1) } := by
  obtain ⟨⟨hl, hp⟩, -⟩ := Context.atLoopEnd_iff.1 h
  have hadv := Context.advance_atLoopEnd h
  rwa [loopEnd_repeats 2 hl hp hc] at hadv

/-- R192: the last pass of the only open level closes it, and the next address follows. -/
theorem Context.advance_closes {c : Context} (h : c.atLoopEnd = true) (hl : c.arch.levels = 1)
    (hc : c.arch.lc[c.arch.level] = 1) : c.advance.pc = c.pc + 1 ∧ c.advance.arch.levels = 0 := by
  obtain ⟨⟨hpos, hp⟩, -⟩ := Context.atLoopEnd_iff.1 h
  have hzero : c.arch.levels - 1 = 0 := by omega
  have hend := loopEnd_closes 2 hpos hp hc
  rw [loopEnd_elsewhere 2 (fun hopen => absurd hopen.1 (hzero ▸ Nat.lt_irrefl 0))] at hend
  obtain ⟨hpc, harch⟩ := Context.advance_atLoopEnd h
  rw [hend] at hpc harch
  exact ⟨hpc, harch ▸ hzero⟩

/-- Settles O17: each case of LOOP and LEAVE is the transfer that its body answers, and each case of the sequel is one of
the advance. -/
theorem loops : Obligations.Loops := by
  refine ⟨fun t n s s1 hi ho => ⟨?skip, ?opens, ?full, ?undefined, ?leaves, ?noLevel⟩,
    fun c => ⟨?taken, ?frozen, ?elsewhere, ?repeats, ?closes⟩⟩
  case skip =>
    intro r hd hn hl
    rw [exec_loop, State.transferOp_jump hi ho (State.loopBody_skip hn hd hl rfl)]
  case opens =>
    intro x r hl hd hn hx
    rw [exec_loop, State.transferOp_jump hi ho (State.loopBody_open hn hd hl hx)]
  case full =>
    intro x r hd hn hl
    rw [exec_loop, State.transferOp_raise hi ho rfl (State.loopBody_full hn hd hl)]
    rfl
  case undefined =>
    rintro rfl
    rw [exec_loop, State.transferOp_raise hi ho rfl (State.loopBody_zero s1 t)]
    rfl
  case leaves =>
    intro hl
    rw [exec_leave, State.transferOp_jump hi ho (if_neg (Nat.pos_iff_ne_zero.1 hl))]
  case noLevel =>
    intro hl
    rw [exec_leave, State.transferOp_raise hi ho rfl (if_pos hl)]
    rfl
  case taken => exact fun b hb ht => Context.sequel_taken hb ht
  case frozen => exact fun hb hz => (Context.sequel_advance hb).trans (Context.advance_loopfz hz)
  case elsewhere =>
    intro hb h
    rw [Context.sequel_advance hb, Context.advance_elsewhere h]
    exact ⟨rfl, rfl⟩
  case repeats =>
    intro hb h hc
    rw [Context.sequel_advance hb]
    exact Context.advance_repeats h hc
  case closes =>
    intro hb h hl hc
    rw [Context.sequel_advance hb]
    exact Context.advance_closes h hl hc

end Sys2Proof.Machine
end


section
/-! SUPPORT. The Riffle's arithmetic (R219 to R226): rounding, EXP, the fit of an exact value and the moves of a pointer. -/

namespace Sys2Proof.Machine

/-! ### Rounding -/

/-- R223: half up adds half a unit before the shift, which carries exactly where the remainder is half a unit or more. -/
theorem roundAcc_eq_roundedAt (even : Bool) (k : Nat) (v : Int) : roundAcc even k v = roundedAt even k v := by
  cases k with
  | zero => rfl
  | succ k =>
    have hunit : (2 : Int) ^ (k + 1) = 2 ^ k * 2 := pow_succ 2 k
    have hpos : (0 : Int) < 2 ^ k := by positivity
    have hsplit := Int.emod_add_mul_ediv v (2 ^ (k + 1))
    have hlow := Int.emod_nonneg v (b := 2 ^ (k + 1)) (by omega)
    have hhigh := Int.emod_lt_of_pos v (b := 2 ^ (k + 1)) (by omega)
    have hrem : v - v / 2 ^ (k + 1) * 2 ^ (k + 1) = v % 2 ^ (k + 1) := by rw [Int.emod_def, mul_comm]
    simp only [roundAcc, roundedAt, hrem, Nat.add_one_ne_zero, if_false, Nat.add_sub_cancel]
    generalize hq : v / 2 ^ (k + 1) = q at *
    generalize hr : v % 2 ^ (k + 1) = r at *
    cases even with
    | true =>
      simp only [if_true, Bool.true_eq_false, false_or]
      split_ifs <;> omega
    | false =>
      simp only [Bool.false_eq_true, if_false, true_or, and_true]
      split_ifs with hcarry
      · have hhalf : 2 ^ k ≤ r := by omega
        rw [Int.ediv_eq_iff_of_pos (by omega)]
        constructor <;> linarith
      · have hhalf : r < 2 ^ k := by omega
        rw [Int.ediv_eq_iff_of_pos (by omega)]
        constructor <;> linarith

/-! ### EXP -/

/-- The count goes down from bit `i - 1`, and stops at the first bit that differs from bit 35. -/
theorem expWord_go (x : Word) (i n : Nat) :
    ∃ m ≤ i, expWord.go x i n = n + m ∧ (∀ j, i - m ≤ j → j < i → x.getLsbD j = x.getLsbD 35)
      ∧ (m < i → x.getLsbD (i - 1 - m) ≠ x.getLsbD 35) := by
  induction i generalizing n with
  | zero => exact ⟨0, Nat.le_refl 0, rfl, fun j _ hj => absurd hj (Nat.not_lt_zero j), fun h => absurd h (Nat.lt_irrefl 0)⟩
  | succ i ih =>
    by_cases hbit : x.getLsbD i = x.getLsbD 35
    · obtain ⟨m, hm, hgo, hsame, hdiff⟩ := ih (n + 1)
      refine ⟨m + 1, by omega, ?_, fun j hlo hhi => ?_, fun h => ?_⟩
      · rw [expWord.go, if_pos hbit, hgo]
        omega
      · rcases Nat.lt_succ_iff_lt_or_eq.1 hhi with hlt | rfl
        · exact hsame j (by omega) hlt
        · exact hbit
      · rw [show i + 1 - 1 - (m + 1) = i - 1 - m by omega]
        exact hdiff (by omega)
    · refine ⟨0, Nat.zero_le _, by rw [expWord.go, if_neg hbit, Nat.add_zero], fun j hlo hhi => by omega, fun _ => hbit⟩

/-- R226: the model's count is EXP. -/
theorem isExp_expWord (x : Word) : isExp x (expWord x) := by
  obtain ⟨m, hm, hgo, hsame, hdiff⟩ := expWord_go x 35 0
  rw [expWord, hgo, Nat.zero_add]
  refine ⟨hm, fun i hlo hhi => ?_, hdiff⟩
  rcases Nat.lt_or_eq_of_le hhi with hlt | rfl
  · exact hsame i hlo hlt
  · rfl

/-! ### The fit of an exact value -/

/-- R221, R223: a value that fits is kept without a flag. -/
theorem fitTo_fits {w : Nat} {v : Int} (sat : Bool) (h : fits w v) : fitTo w sat v = (v, false) := by
  obtain ⟨hlo, hhi⟩ := h
  rw [fitTo, if_neg (by omega), if_neg (by omega)]

/-- R221, R223: any other value sets the flag and takes the nearer limit, or keeps its low bits. -/
theorem fitTo_not_fits {w : Nat} {v : Int} (sat : Bool) (h : ¬ fits w v) :
    fitTo w sat v
      = (if sat then (if v < 0 then -(2 ^ (w - 1)) else 2 ^ (w - 1) - 1) else (BitVec.ofInt w v).toInt, true) := by
  have hpos : (0 : Int) < 2 ^ (w - 1) := by positivity
  by_cases hlo : v < -(2 ^ (w - 1))
  · have hneg : v < 0 := by omega
    simp only [fitTo, if_pos hlo, if_pos hneg]
  · have hhi : 2 ^ (w - 1) - 1 < v := by
      by_contra hle
      exact h ⟨by omega, by omega⟩
    have hneg : ¬v < 0 := by omega
    simp only [fitTo, if_neg hlo, if_pos hhi, if_neg hneg]

/-! ### The moves of a pointer -/

/-- An address of 11 bits is its value modulo 2 048. -/
theorem toNat_ofInt_address (v : Int) : ((BitVec.ofInt 11 v).toNat : Int) = v % 2048 := by
  rw [BitVec.toNat_ofInt, Int.toNat_of_nonneg (Int.emod_nonneg v (by decide))]
  rfl

section
variable (p : BitVec 11) (st : BitVec 33)

/-- The step of a pointer's move (R219). -/
def pointerStep : Int := (st.extractLsb' 0 11).toInt

/-- The length of a pointer's circle, with 0 for 2 048 (R219). -/
def circleLength : Int := if st.extractLsb' 11 11 = 0 then 2048 else (st.extractLsb' 11 11).toNat

/-- The base of a pointer's circle (R219). -/
def circleBase : Int := (st.extractLsb' 22 11).toNat

/-- A pointer lies in its circle (R219). -/
def inCircle : Prop := circleBase st ≤ p.toNat ∧ (p.toNat : Int) ≤ circleBase st + circleLength st - 1

/-- The field of a length that is zero is the field whose value is zero. -/
theorem circleLength_eq :
    circleLength st = if (st.extractLsb' 11 11).toNat = 0 then 2048 else ((st.extractLsb' 11 11).toNat : Int) := by
  simp only [circleLength, BitVec.toNat_eq, BitVec.ofNat_eq_ofNat, BitVec.toNat_ofNat, Nat.zero_mod]

variable {p st}

/-- R219: within its circle a pointer moves along the circle. -/
theorem movePointer_inCircle (h : inCircle p st) :
    ((movePointer p st).toNat : Int)
      = (circleBase st + ((p.toNat : Int) - circleBase st + pointerStep st) % circleLength st) % 2048 := by
  have hmove : movePointer p st
      = BitVec.ofInt 11 (circleBase st + ((p.toNat : Int) - circleBase st + pointerStep st) % circleLength st) := by
    rw [inCircle, circleLength_eq] at h
    rw [circleLength_eq]
    exact if_pos h
  rw [hmove, toNat_ofInt_address]

/-- R219: outside its circle a pointer moves along the 2 048 addresses. -/
theorem movePointer_outside (h : ¬ inCircle p st) :
    ((movePointer p st).toNat : Int) = ((p.toNat : Int) + pointerStep st) % 2048 := by
  have hmove : movePointer p st = BitVec.ofInt 11 (((p.toNat : Int) + pointerStep st) % 2048) := by
    rw [inCircle, circleLength_eq] at h
    exact if_neg h
  rw [hmove, toNat_ofInt_address, Int.emod_emod]

variable (p)

/-- R219: with a step register of 0 the pointer stays. -/
theorem movePointer_zero : movePointer p 0 = p := by
  have hp : p.toNat < 2048 := p.isLt
  have hin : inCircle p 0 := ⟨Int.natCast_nonneg _, show (p.toNat : Int) ≤ 0 + 2048 - 1 by omega⟩
  have hmove : ((movePointer p 0).toNat : Int) = (0 + ((p.toNat : Int) - 0 + 0) % 2048) % 2048 := movePointer_inCircle hin
  apply BitVec.eq_of_toNat_eq
  omega
end

end Sys2Proof.Machine
end

section
/-! SUPPORT. The ops on the return stack, the operand registers and the accumulators in slot A, each with its row. -/

namespace Sys2Proof.Machine

/-! ### Rows -/

/-- R223: what RDRE and RDIM push and flag is the row's. -/
theorem Arch.pushAcc_eq_readRow (acc : Arch → BitVec 40) (a : Arch) : a.pushAcc (acc a) = readRow acc a := by
  simp only [Arch.pushAcc, Arch.readAcc, readRow, roundAcc_eq_roundedAt]

/-- The larger of a register of 6 bits and a count that fits it. -/
theorem larger_ofNat (r : BitVec 6) {n : Nat} (hn : n < 64) :
    (if r < BitVec.ofNat 6 n then BitVec.ofNat 6 n else r) = BitVec.ofNat 6 (Nat.max r.toNat n) := by
  have hlt : r < BitVec.ofNat 6 n ↔ r.toNat < n := by
    rw [BitVec.lt_def, BitVec.toNat_ofNat, Nat.mod_eq_of_lt hn]
  by_cases h : r.toNat < n
  · rw [if_pos (hlt.2 h), show Nat.max r.toNat n = n from Nat.max_eq_right h.le]
  · rw [if_neg (mt hlt.1 h), show Nat.max r.toNat n = r.toNat from Nat.max_eq_left (Nat.le_of_not_lt h),
      BitVec.ofNat_toNat, BitVec.setWidth_eq]

/-- R226: BEXP keeps the larger of RBX and 35 - EXP. -/
theorem opBexp_eq (a : Arch) :
    opBexp a
      = { a with ds := a.ds.drop 1, rbx := BitVec.ofNat 6 (Nat.max a.rbx.toNat (35 - expWord (a.ds.getD 0 0))) } := by
  rw [opBexp, larger_ofNat a.rbx (by omega)]

/-! ### Pairs -/

/-- A pair with an op on the registers in slot A (R175). -/
theorem State.pair_pureOp {s s1 s3 : State} {t : Ctx} {ca b : BitVec 8} {bar : Bool} {act : Arch → Arch}
    (hi : Issues s t s1) (hc : PairOk s1 t ca b) (hb : shortOp b.toNat (s1.modArch t act) t = .ok s3 ()) :
    s.pair t ca (pureOp act) b bar = s3.seqAfter s1 t bar :=
  State.pair_ok hi hc rfl hb

/-- An op on the return stack or the operand registers is a pair with its row in slot A. -/
theorem RegRow.exec_eq_pair {cmd : Ctx → BitVec 8 → Bool → Instr} {code : BitVec 8} {act : Arch → Arch}
    (h : RegRow cmd code act) (t : Ctx) (b : BitVec 8) (bar : Bool) (s : State) :
    exec (cmd t b bar) s = .next (s.pair t code (pureOp act) b bar) := by
  cases h with
  | tor => rfl
  | fromr => rfl
  | rfetch => rfl
  | rdrop => rfl
  | os k =>
    rw [BitVec.ofNat_add]
    rfl

/-- A Riffle op on registers is a pair with its row in slot A. -/
theorem RiffleRow.exec_eq_pair {cmd : Ctx → BitVec 8 → Bool → Instr} {code : BitVec 8} {act : Arch → Arch}
    (h : RiffleRow cmd code act) (t : Ctx) (b : BitVec 8) (bar : Bool) (s : State) :
    exec (cmd t b bar) s = .next (s.pair t code (pureOp act) b bar) := by
  cases h with
  | clra => rfl
  | rdre =>
    rw [← funext (Arch.pushAcc_eq_readRow Arch.acr)]
    rfl
  | rdim =>
    rw [← funext (Arch.pushAcc_eq_readRow Arch.aci)]
    rfl
  | wrre => rfl
  | wrim => rfl
  | norm => rfl
  | exp => rfl
  | bexp =>
    rw [← funext opBexp_eq]
    rfl
  | rdbx => rfl
  | rnd => rfl

/-- Settles O9: each row is a pair with the row's op on the registers in slot A, and the model's count of leading bits is
EXP. -/
theorem riffleRegisterOps : Obligations.RiffleRegisterOps := by
  refine ⟨fun cmd code act hrow t b bar s s1 s3 hi hc hb => ?_, isExp_expWord⟩
  have hexec : exec (cmd t b bar) s = .next (s.pair t code (pureOp act) b bar) := by
    rcases hrow with hreg | hriffle
    · exact hreg.exec_eq_pair t b bar s
    · exact hriffle.exec_eq_pair t b bar s
  rw [hexec, State.pair_pureOp hi hc hb]

end Sys2Proof.Machine
end

section
/-! SUPPORT. MAC and CMAC (R218 to R221): their operand words, and what they make of the registers. -/

namespace Sys2Proof.Machine

/-! ### Operand words -/

section
variable (s : State) (t : Ctx) (p : BitVec 11)

/-- The word of X RAM at `p` for context `t`, a buffered store's first (R180, R218). -/
def State.xWord : Word :=
  (youngest t (p.zeroExtend 18) (s.hunit (s.ctx t).unit).buffer).getD (Mem.get 0 (s.ctx t).xram p.toNat)

/-- The word of Y RAM at `p` for context `t`, a buffered store's first (R180, R218). -/
def State.yWord : Word :=
  (youngest t (2048 + p.zeroExtend 18) (s.hunit (s.ctx t).unit).buffer).getD (Mem.get 0 (s.ctx t).yram p.toNat)

/-- A bank's addresses are 2 048 words (R179). -/
theorem toNat_bankAddr (bank : BitVec 7) : (bankAddr bank p).toNat = bank.toNat * 2048 + p.toNat := by
  rw [bankAddr, BitVec.toNat_append, ← Nat.shiftLeft_add_eq_or_of_lt p.isLt, Nat.shiftLeft_eq]

/-- Bank 0 begins at address 0. -/
@[simp] theorem toNat_bankAddr_zero : (bankAddr 0 p).toNat = p.toNat := by
  simp [toNat_bankAddr]

/-- Bank 1 begins at address 2 048. -/
@[simp] theorem toNat_bankAddr_one : (bankAddr 1 p).toNat = 2048 + p.toNat := by
  simp [toNat_bankAddr]

/-- Bank 0 holds the addresses of 11 bits. -/
theorem bankAddr_zero : bankAddr 0 p = p.zeroExtend 18 := by
  apply BitVec.eq_of_toNat_eq
  rw [toNat_bankAddr_zero, BitVec.toNat_setWidth_of_le (by decide)]

/-- Bank 1 holds the 2 048 addresses that follow. -/
theorem bankAddr_one : bankAddr 1 p = 2048 + p.zeroExtend 18 := by
  have hp : p.toNat < 2048 := p.isLt
  have hfirst : (2048 : BitVec 18).toNat = 2048 := rfl
  apply BitVec.eq_of_toNat_eq
  rw [toNat_bankAddr_one, BitVec.toNat_add, BitVec.toNat_setWidth_of_le (by decide), hfirst, Nat.mod_eq_of_lt (by omega)]

/-- A load from X or Y RAM gives a buffered store's word, or else the word that stands there, and changes nothing (R180). -/
theorem State.load_ram {addr : BitVec 18} (h : addr.toNat < 4096) :
    s.load t addr = .ok s ((youngest t addr (s.hunit (s.ctx t).unit).buffer).getD
      (Mem.get 0 ((s.ctx t).ram (addr.toNat / 2048)) (addr.toNat % 2048))) := by
  rw [State.load]
  exact if_pos (by omega)

/-- R218: the operand word at XP. -/
theorem State.operand_x : s.operand t 0 p = .ok s (s.xWord t p) := by
  have hp : p.toNat < 2048 := p.isLt
  have hram : (bankAddr 0 p).toNat < 4096 := by rw [toNat_bankAddr_zero]; omega
  rw [State.operand, State.load_ram s t hram, toNat_bankAddr_zero, Nat.div_eq_of_lt hp, Nat.mod_eq_of_lt hp, bankAddr_zero]
  rfl

/-- R218: the operand word at YP. -/
theorem State.operand_y : s.operand t 1 p = .ok s (s.yWord t p) := by
  have hp : p.toNat < 2048 := p.isLt
  have hram : (bankAddr 1 p).toNat < 4096 := by rw [toNat_bankAddr_one]; omega
  have hbank : (2048 + p.toNat) / 2048 = 1 := by omega
  have hword : (2048 + p.toNat) % 2048 = p.toNat := by omega
  rw [State.operand, State.load_ram s t hram, toNat_bankAddr_one, hbank, hword, bankAddr_one]
  rfl
end

/-! ### The ops -/

/-- The registers once the exact terms `re` and `im` have been added or, under NEG, subtracted, and the pointers have moved (R219
to R221). -/
def Arch.accumulate (re im : Int) (a : Arch) : Arch :=
  let sg : Int := if a.neg then -1 else 1
  let moves := !a.alt || a.neg
  { a.setAccs (a.acr.toInt + sg * re) (a.aci.toInt + sg * im) with
    xp := if moves then movePointer a.xp a.xstep else a.xp,
    yp := if moves then movePointer a.yp a.ystep else a.yp,
    neg := if a.alt then !a.neg else a.neg }

/-- R220: MAC's terms are the products of the halves of the same rank. -/
theorem Arch.macc_real (a : Arch) (x y : Word) :
    a.macc false x y = a.accumulate (hiHalf x * hiHalf y) (loHalf x * loHalf y) := rfl

/-- R220: CMAC's terms are those of the complex product, by the conjugate under CONJ. -/
theorem Arch.macc_complex (a : Arch) (x y : Word) :
    let yl := if a.conj then -loHalf y else loHalf y
    a.macc true x y = a.accumulate (hiHalf x * hiHalf y - loHalf x * yl) (hiHalf x * yl + loHalf x * hiHalf y) := rfl

/-- MAC and CMAC complete, and change the registers of the context alone. -/
theorem opMacc_eq (complex : Bool) (s : State) (t : Ctx) :
    opMacc complex s t
      = .ok (s.modArch t (fun a => a.macc complex (s.xWord t (s.ctx t).arch.xp) (s.yWord t (s.ctx t).arch.yp))) () := by
  simp only [opMacc, State.operand_x, State.operand_y, Res.bind]

/-- A pair with MAC or CMAC in slot A, by what it makes of the registers that stand. -/
theorem State.pair_macc {s s1 s3 : State} {t : Ctx} {ca b : BitVec 8} {bar complex : Bool} {act : Arch → Arch}
    (hi : Issues s t s1) (hc : PairOk s1 t ca b)
    (ha : (s1.ctx t).arch.macc complex (s1.xWord t (s1.ctx t).arch.xp) (s1.yWord t (s1.ctx t).arch.yp) = act (s1.ctx t).arch)
    (hb : shortOp b.toNat (s1.modArch t act) t = .ok s3 ()) :
    s.pair t ca (opMacc complex) b bar = s3.seqAfter s1 t bar := by
  have hop : opMacc complex s1 t = .ok (s1.modArch t act) () := by
    rw [opMacc_eq, State.modArch_congr (g := act) ha]
  exact State.pair_ok hi hc hop hb

/-- MAC without a parity error is a pair (R225). -/
theorem exec_mac (t : Ctx) (b : BitVec 8) (bar : Bool) (s : State) :
    exec (.mac t b bar none) s = .next (s.pair t 0x50 (opMacc false) b bar) := rfl

/-- CMAC is a pair (R225). -/
theorem exec_cmac (t : Ctx) (b : BitVec 8) (bar : Bool) (s : State) :
    exec (.cmac t b bar) s = .next (s.pair t 0x51 (opMacc true) b bar) := rfl

/-- Settles O10: MAC and CMAC are pairs whose slot A adds the products of the two operand words, and the fit and the pointers'
moves are as R219, R221 and R223 give them. -/
theorem multiplyAccumulate : Obligations.MultiplyAccumulate := by
  refine ⟨fun t b bar s s1 s3 hi => ⟨?mac, ?cmac⟩, fun w sat v _ => ⟨fitTo_fits sat, fun h => ?unfit⟩,
    fun p st => ⟨movePointer_inCircle, movePointer_outside, movePointer_zero p⟩⟩
  case mac =>
    intro hc hb
    rw [exec_mac, State.pair_macc hi hc (Arch.macc_real _ _ _) hb]
  case cmac =>
    intro hc hb
    rw [exec_cmac, State.pair_macc hi hc (Arch.macc_complex _ _ _) hb]
  case unfit =>
    rw [fitTo_not_fits sat h]
    exact ⟨rfl, fun hsat => if_pos hsat, fun hsat => if_neg (Bool.eq_false_iff.1 hsat)⟩

end Sys2Proof.Machine
end
